-- ==== Sys2Proof/Word.lean ====
section
/-! DEFINITION. The word types of CORE, named after what the spec calls them. -/

namespace Sys2Proof

/-- A host register value: 32 bits (00_scope.md R11). -/
abbrev Word := BitVec 32

/-- One byte of the payload (00_scope.md R6). -/
abbrev Byte := BitVec 8

/-- One coefficient as CORE reads it, `CW = 16` bits of two's complement (00_scope.md R7, 30_encoding.md R95). -/
abbrev CoefWord := BitVec 16

/-- A host transaction written as one word, 41 bits (30_encoding.md R97). -/
abbrev TWord := BitVec 41

/-- The step selector, 5 bits (30_encoding.md R100). -/
abbrev SWord := BitVec 5

end Sys2Proof
end

