-- ==== Sys2Proof/Syntax.lean ====
section
/-! DEFINITION. The operations of CORE: one constructor per row of the opcode table. -/

namespace Sys2Proof

/-- The eighteen operations: twelve host transactions (30_encoding.md R99), which carry their 32 bits of `wdata`
as the host drives them, and six sequencer operations (30_encoding.md R101), which have no operand outside the
state. -/
inductive Instr
  /-- `START`: begin an operation (41_host_operations.md R144). -/
  | start (wdata : Word)
  /-- `CLEAR`: back to `IDLE` (41_host_operations.md R145). -/
  | clear (wdata : Word)
  /-- `CTRL_NOP`: a write to `CTRL` with neither command bit (41_host_operations.md R158). -/
  | ctrlNop (wdata : Word)
  /-- `WR_GRID_H` (41_host_operations.md R141). -/
  | wrGridH (wdata : Word)
  /-- `WR_GRID_W` (41_host_operations.md R142). -/
  | wrGridW (wdata : Word)
  /-- `RD_CTRL` (41_host_operations.md R151); `wdata` is ignored on a read. -/
  | rdCtrl (wdata : Word)
  /-- `RD_STATUS` (41_host_operations.md R152). -/
  | rdStatus (wdata : Word)
  /-- `RD_GRID_H` (41_host_operations.md R153). -/
  | rdGridH (wdata : Word)
  /-- `RD_GRID_W` (41_host_operations.md R154). -/
  | rdGridW (wdata : Word)
  /-- `RD_LEN` (41_host_operations.md R155). -/
  | rdLen (wdata : Word)
  /-- `RD_OUT_LEN` (41_host_operations.md R156). -/
  | rdOutLen (wdata : Word)
  /-- `RD_BIT_COUNT` (41_host_operations.md R157). -/
  | rdBitCount (wdata : Word)
  /-- `FINISH`: the scan is exhausted (44_framer.md R199). -/
  | finish
  /-- `VISIT_ABSENT`: a position outside the grid (42_scanner.md R166). -/
  | visitAbsent
  /-- `VISIT_SKIP`: an unusable coefficient (43_filter_extractor.md R182). -/
  | visitSkip
  /-- `EMIT_HDR`: a bit of the header (44_framer.md R191). -/
  | emitHdr
  /-- `EMIT_PAY`: a bit of the payload (44_framer.md R193). -/
  | emitPay
  /-- `EMIT_DRAIN`: a bit after the payload (44_framer.md R195). -/
  | emitDrain
  deriving DecidableEq, Repr

end Sys2Proof
end

