-- ==== Sys2Proof/WellFormed.lean ====
section
/-! DEFINITION. Which terms of `Instr` are operations the encoding can express. -/

namespace Sys2Proof

/-- A write to `CTRL` is `START`, `CLEAR` or `CTRL_NOP` by its two low bits (30_encoding.md R98); every other
operation admits every `wdata`. -/
def Instr.wellFormed : Instr → Bool
  | .start wdata => wdata.getLsbD 0
  | .clear wdata => !wdata.getLsbD 0 && wdata.getLsbD 1
  | .ctrlNop wdata => !wdata.getLsbD 0 && !wdata.getLsbD 1
  | .wrGridH _ => true
  | .wrGridW _ => true
  | .rdCtrl _ => true
  | .rdStatus _ => true
  | .rdGridH _ => true
  | .rdGridW _ => true
  | .rdLen _ => true
  | .rdOutLen _ => true
  | .rdBitCount _ => true
  | .finish => true
  | .visitAbsent => true
  | .visitSkip => true
  | .emitHdr => true
  | .emitPay => true
  | .emitDrain => true

end Sys2Proof
end

