-- ==== Sys2Proof/Decode.lean ====
section
/-! DEFINITION. The two encodings of CORE, the `T` word of a host transaction and the `S` word of a sequencer
step: decoder, encoder, and the spec's own table of masks. -/

namespace Sys2Proof

/-- Why a `T` word selects no row of the opcode table (30_encoding.md R103). None of these is an error of the
machine: Machine/Ops.lean gives each its effect. -/
inductive TReject
  /-- A write to `STATUS`, `LEN`, `OUT_LEN` or `BIT_COUNT` (41_host_operations.md R149). -/
  | readOnlyWrite (addr : BitVec 8)
  /-- A write to an address with no register (41_host_operations.md R150). -/
  | unmappedWrite (addr : BitVec 8)
  /-- A read of an address with no register (41_host_operations.md R150). -/
  | unmappedRead (addr : BitVec 8)
  deriving DecidableEq, Repr

/-- Why an `S` word selects no row: the framer phase field holds 3 (30_encoding.md R102). -/
inductive SReject
  | reservedPhase
  deriving DecidableEq, Repr

/-- A word of either format. -/
inductive Encoded
  | t (w : TWord)
  | s (w : SWord)
  deriving DecidableEq, Repr

/-- The `T` word of a transaction: `we` in bit 40, `addr` in 39:32, `wdata` in 31:0 (30_encoding.md R97). -/
def tWord (we : Bool) (addr : BitVec 8) (wdata : Word) : TWord :=
  BitVec.ofBool we ++ addr ++ wdata

/-- Bit 40 of a `T` word: 1 is a write. -/
def tWe (t : TWord) : Bool := t.getLsbD 40

/-- Bits 39:32 of a `T` word. -/
def tAddr (t : TWord) : BitVec 8 := t.extractLsb' 32 8

/-- Bits 31:0 of a `T` word. -/
def tWdata (t : TWord) : Word := t.extractLsb' 0 32

/-- The command bits of a write to `CTRL` (30_encoding.md R98, 41_host_operations.md R143, R147): `START` wins
over `CLEAR`. -/
def decodeCtrl (wdata : Word) : Instr :=
  if wdata.getLsbD 0 then .start wdata
  else if wdata.getLsbD 1 then .clear wdata
  else .ctrlNop wdata

/-- A write transaction by its address (30_encoding.md R99, R103). -/
def decodeWrite (addr : BitVec 8) (wdata : Word) : Except TReject Instr :=
  if addr = 0x00#8 then .ok (decodeCtrl wdata)
  else if addr = 0x08#8 then .ok (.wrGridH wdata)
  else if addr = 0x0C#8 then .ok (.wrGridW wdata)
  else if addr = 0x04#8 ∨ addr = 0x10#8 ∨ addr = 0x14#8 ∨ addr = 0x18#8 then .error (.readOnlyWrite addr)
  else .error (.unmappedWrite addr)

/-- A read transaction by its address (30_encoding.md R99, R103). -/
def decodeRead (addr : BitVec 8) (wdata : Word) : Except TReject Instr :=
  if addr = 0x00#8 then .ok (.rdCtrl wdata)
  else if addr = 0x04#8 then .ok (.rdStatus wdata)
  else if addr = 0x08#8 then .ok (.rdGridH wdata)
  else if addr = 0x0C#8 then .ok (.rdGridW wdata)
  else if addr = 0x10#8 then .ok (.rdLen wdata)
  else if addr = 0x14#8 then .ok (.rdOutLen wdata)
  else if addr = 0x18#8 then .ok (.rdBitCount wdata)
  else .error (.unmappedRead addr)

/-- The host operation a `T` word selects (30_encoding.md R99), or the name of why it selects none. -/
def decodeT (t : TWord) : Except TReject Instr :=
  if tWe t then decodeWrite (tAddr t) (tWdata t) else decodeRead (tAddr t) (tWdata t)

/-- The sequencer operation an `S` word selects (30_encoding.md R101): bits `EXH` (4), `PRES` (3), `USE` (2) and
`FPH` (1:0), each ignored where it is not meaningful. -/
def decodeS (w : SWord) : Except SReject Instr :=
  if w.getLsbD 4 then .ok .finish
  else if !w.getLsbD 3 then .ok .visitAbsent
  else if !w.getLsbD 2 then .ok .visitSkip
  else if w.extractLsb' 0 2 = 0#2 then .ok .emitHdr
  else if w.extractLsb' 0 2 = 1#2 then .ok .emitPay
  else if w.extractLsb' 0 2 = 2#2 then .ok .emitDrain
  else .error .reservedPhase

/-- The operation a word of either format selects. -/
def decode : Encoded → Option Instr
  | .t w => (decodeT w).toOption
  | .s w => (decodeS w).toOption

/-- The host's view of the decoder: a row of at most 8 bits is an `S` word, a longer one a `T` word; a number with
a bit above the format's width is no word of that format (log 13). -/
def decodeTableWord (nbits w : Nat) : Option Instr :=
  if nbits ≤ 8 then
    if w < 2 ^ 5 then decode (.s (BitVec.ofNat 5 w)) else none
  else
    if w < 2 ^ 41 then decode (.t (BitVec.ofNat 41 w)) else none

/-- The word of an operation, from the field columns of 30_encoding.md R99 and R101. The bits of an `S` word that
its row ignores are written 0. -/
def encode : Instr → Encoded
  | .start wdata => .t (tWord true 0x00 wdata)
  | .clear wdata => .t (tWord true 0x00 wdata)
  | .ctrlNop wdata => .t (tWord true 0x00 wdata)
  | .wrGridH wdata => .t (tWord true 0x08 wdata)
  | .wrGridW wdata => .t (tWord true 0x0C wdata)
  | .rdCtrl wdata => .t (tWord false 0x00 wdata)
  | .rdStatus wdata => .t (tWord false 0x04 wdata)
  | .rdGridH wdata => .t (tWord false 0x08 wdata)
  | .rdGridW wdata => .t (tWord false 0x0C wdata)
  | .rdLen wdata => .t (tWord false 0x10 wdata)
  | .rdOutLen wdata => .t (tWord false 0x14 wdata)
  | .rdBitCount wdata => .t (tWord false 0x18 wdata)
  | .finish => .s 0b10000
  | .visitAbsent => .s 0b00000
  | .visitSkip => .s 0b01000
  | .emitHdr => .s 0b01100
  | .emitPay => .s 0b01101
  | .emitDrain => .s 0b01110

/-- The mnemonic of an operation, as the opcode table spells it. -/
def mnemonic : Instr → String
  | .start _ => "START"
  | .clear _ => "CLEAR"
  | .ctrlNop _ => "CTRL_NOP"
  | .wrGridH _ => "WR_GRID_H"
  | .wrGridW _ => "WR_GRID_W"
  | .rdCtrl _ => "RD_CTRL"
  | .rdStatus _ => "RD_STATUS"
  | .rdGridH _ => "RD_GRID_H"
  | .rdGridW _ => "RD_GRID_W"
  | .rdLen _ => "RD_LEN"
  | .rdOutLen _ => "RD_OUT_LEN"
  | .rdBitCount _ => "RD_BIT_COUNT"
  | .finish => "FINISH"
  | .visitAbsent => "VISIT_ABSENT"
  | .visitSkip => "VISIT_SKIP"
  | .emitHdr => "EMIT_HDR"
  | .emitPay => "EMIT_PAY"
  | .emitDrain => "EMIT_DRAIN"

/-- The match and mask columns of 30_encoding.md R99, row by row: (mnemonic, match, mask). -/
def hostRows : List (String × TWord × TWord) :=
  [("START", 0x10000000001#41, 0x1FF00000001#41),
   ("CLEAR", 0x10000000002#41, 0x1FF00000003#41),
   ("CTRL_NOP", 0x10000000000#41, 0x1FF00000003#41),
   ("WR_GRID_H", 0x10800000000#41, 0x1FF00000000#41),
   ("WR_GRID_W", 0x10C00000000#41, 0x1FF00000000#41),
   ("RD_CTRL", 0x00000000000#41, 0x1FF00000000#41),
   ("RD_STATUS", 0x00400000000#41, 0x1FF00000000#41),
   ("RD_GRID_H", 0x00800000000#41, 0x1FF00000000#41),
   ("RD_GRID_W", 0x00C00000000#41, 0x1FF00000000#41),
   ("RD_LEN", 0x01000000000#41, 0x1FF00000000#41),
   ("RD_OUT_LEN", 0x01400000000#41, 0x1FF00000000#41),
   ("RD_BIT_COUNT", 0x01800000000#41, 0x1FF00000000#41)]

/-- The match and mask columns of 30_encoding.md R101. -/
def sequencerRows : List (String × SWord × SWord) :=
  [("FINISH", 0x10#5, 0x10#5),
   ("VISIT_ABSENT", 0x00#5, 0x18#5),
   ("VISIT_SKIP", 0x08#5, 0x1C#5),
   ("EMIT_HDR", 0x0C#5, 0x1F#5),
   ("EMIT_PAY", 0x0D#5, 0x1F#5),
   ("EMIT_DRAIN", 0x0E#5, 0x1F#5)]

end Sys2Proof
end

