-- ==== Sys2Proof/Config.lean ====
section
/-! DEFINITION. What an implementation fixes, and the one free value of the model. -/

namespace Sys2Proof.Config

/-- `UNDERRUN_POLICY` (00_scope.md R9): what CORE does when fewer than `8 * length` payload bits follow the
header. Both values are modelled; a state says which one its implementation has (log 1). -/
inductive UnderrunPolicy
  /-- Zero-pad what there is and go on: the source's recommended default. -/
  | pad
  /-- End the operation with `TruncatedPayload`. -/
  | strict
  deriving DecidableEq, Repr

/-- FREE VALUE: the coefficient at a `COEF` address into which nothing is known to have been placed
(70_reset_and_hazards.md R251: "whatever the platform leaves there"). It has no body, so no proof can know it
(log 5). -/
opaque coefUnwritten : Nat → CoefWord

end Sys2Proof.Config
end

