-- ==== Sys2Proof/Machine/State.lean ====
section
/-! DEFINITION. The state of CORE and of the two memories beside it, the state after reset, and the ways a step
can stop. -/

namespace Sys2Proof.Machine

/-- `PHASE` (10_state.md R23). Value 3 is never taken, so the type has three values (93 V8). -/
inductive Phase
  /-- 0: no operation has run since reset or `CLEAR`. -/
  | idle
  /-- 1: an operation is running. -/
  | busy
  /-- 2: an operation has ended. -/
  | done
  deriving DecidableEq, Repr

/-- `FPH`, the framer phase (10_state.md R27). Value 3 is never taken (93 V7). -/
inductive FramerPhase
  /-- 0: fewer than 32 bits received. -/
  | hdr
  /-- 1: at least one payload bit still expected. -/
  | pay
  /-- 2: every expected payload bit received. -/
  | drain
  deriving DecidableEq, Repr

/-- `ERRCODE` (10_state.md R36). Values 3 to 15 are never taken (93 V4). -/
inductive ErrCode
  /-- 0: no error. -/
  | none
  /-- 1: fewer than 32 bits in the whole grid (60_exceptions.md R222). -/
  | insufficientHeader
  /-- 2: fewer payload bits than declared, under `STRICT` (60_exceptions.md R223). -/
  | truncatedPayload
  deriving DecidableEq, Repr

/-- Who acts next, and with what (00_scope.md R16; log 4). Every list of turns is an allowed interleaving. -/
inductive Turn
  /-- The sequencer may take a step (42_scanner.md R160). -/
  | sequencer
  /-- The host performs one transaction (41_host_operations.md R140). -/
  | host (t : TWord)
  /-- The platform places a coefficient word in `COEF` (70_reset_and_hazards.md R253 step 1; log 7). -/
  | coefWrite (row col : BitVec 16) (w : CoefWord)
  /-- Hardware reset (70_reset_and_hazards.md R250 to R252; log 8). -/
  | hardReset
  deriving DecidableEq, Repr

/-- The registers of CORE (10_state.md R20 to R37), the contents of `COEF` and `PAY` carried beside them (R20),
the implementation's policy (00_scope.md R9), and the model's own `turns` and `reads`. -/
structure State where
  /-- `GRID_H` (R21). -/
  gridH : BitVec 16
  /-- `GRID_W` (R22). -/
  gridW : BitVec 16
  /-- `PHASE` (R23). -/
  phase : Phase
  /-- `BY` (R24). -/
  bY : BitVec 17
  /-- `BX` (R25). -/
  bX : BitVec 17
  /-- `K` (R26). -/
  k : BitVec 6
  /-- `FPH` (R27). -/
  fph : FramerPhase
  /-- `HDRCNT` (R28). -/
  hdrCnt : BitVec 6
  /-- `LEN` (R29). -/
  len : BitVec 32
  /-- `REM` (R30). -/
  rem : BitVec 35
  /-- `SHREG` (R31). -/
  shreg : BitVec 8
  /-- `NB` (R32). -/
  nb : BitVec 3
  /-- `BIT_COUNT` (R33). -/
  bitCount : BitVec 32
  /-- `OUTCNT` (R34). -/
  outCnt : BitVec 32
  /-- `OUT_LEN` (R35). -/
  outLen : BitVec 32
  /-- `ERRCODE` (R36). -/
  errCode : ErrCode
  /-- `UNDERRUN` (R37). -/
  underrun : Bool
  /-- `COEF` (20_memory.md R62): the words known to have been placed, by address `row ‖ col`, addresses strictly
  rising (log 5). -/
  coef : List (Nat × CoefWord)
  /-- `PAY` (20_memory.md R63): the bytes known to have been written, addresses strictly rising (log 6). -/
  pay : List Host.Cell
  /-- `UNDERRUN_POLICY` (00_scope.md R9), fixed for the life of an implementation: no step writes it (log 1). -/
  policy : Config.UnderrunPolicy
  /-- The model's own: the turns still to come, first one first; after the last one every turn is the sequencer's
  (log 4). -/
  turns : List Turn
  /-- The model's own: every `rdata` the host has been given, oldest first (log 9). -/
  reads : List Word
  deriving DecidableEq, Repr

/-- There is no fault: "No primitive faults" (00_scope.md R14), and nothing but the two outcomes of `FINISH`,
which are next states, can fail (60_exceptions.md R221). -/
inductive Fault
  deriving DecidableEq, Repr

/-- The reasons an operation is refused. -/
inductive Refusal
  /-- Raised by an arm of `exec` whose instruction has no meaning yet; none is left. Safe: the model stops. -/
  | notModelled (mnemonic : String)
  /-- Raised by the sequencer's turn on an `S` word with `FPH = 3` (30_encoding.md R102: unreachable). No state has
  such a word. Safe: the model stops. -/
  | reservedSelector
  deriving DecidableEq, Repr

/-- Hardware reset (70_reset_and_hazards.md R250): every register at the value of its table; `COEF` and `PAY` with
nothing known (R251; logs 5, 6); the policy at the default of 00_scope.md R9 (log 1); no turn and no answer yet. -/
def State.reset : State where
  gridH := 0
  gridW := 0
  phase := .idle
  bY := 0
  bX := 0
  k := 1
  fph := .hdr
  hdrCnt := 0
  len := 0
  rem := 0
  shreg := 0
  nb := 0
  bitCount := 0
  outCnt := 0
  outLen := 0
  errCode := .none
  underrun := false
  coef := []
  pay := []
  policy := .pad
  turns := []
  reads := []

end Sys2Proof.Machine
end

