-- ==== Sys2Proof/Machine/Ops.lean ====
section
/-! DEFINITION. The named operations over memory and registers that the meanings share. -/

namespace Sys2Proof.Machine

/-! ### Memory: cells by strictly rising address, an unlisted address holding no known value -/

/-- What is known to stand at address `a`. -/
def readCell {α : Type} : List (Nat × α) → Nat → Option α
  | [], _ => none
  | (b, v) :: rest, a => if a = b then some v else readCell rest a

/-- Store `v` at address `a`, keeping the addresses strictly rising. -/
def writeCell {α : Type} : List (Nat × α) → Nat → α → List (Nat × α)
  | [], a, v => [(a, v)]
  | (b, w) :: rest, a, v =>
    if a < b then (a, v) :: (b, w) :: rest
    else if a = b then (a, v) :: rest
    else (b, w) :: writeCell rest a v

/-- Every address of the cells lies above `a`, and they rise strictly. -/
def risingAbove {α : Type} : Nat → List (Nat × α) → Bool
  | _, [] => true
  | a, (b, _) :: rest => decide (a < b) && risingAbove b rest

/-- The canonical form of a memory: addresses strictly rising. (An unlisted address holds no value, so no listed
entry can equal it.) -/
def Memory.wf {α : Type} : List (Nat × α) → Bool
  | [] => true
  | (a, _) :: rest => risingAbove a rest

/-- The `COEF` address of `(row, col)`: `row` in bits 31:16, `col` in bits 15:0 (30_encoding.md R96). -/
def coefAddress (row col : Nat) : BitVec 32 :=
  BitVec.ofNat 16 row ++ BitVec.ofNat 16 col

/-- `MemRead(COEF, (row, col), 1)` (00_scope.md R14, 20_memory.md R62): the word at a `COEF` address, a free value
where none is known to have been placed (log 5). It cannot fault (20_memory.md R75) and changes nothing (R73). -/
def coefRead (s : State) (a : BitVec 32) : CoefWord :=
  (readCell s.coef a.toNat).getD (Config.coefUnwritten a.toNat)

/-- The byte known to stand at a `PAY` address. CORE itself never reads `PAY` (20_memory.md R60). -/
def payRead (s : State) (a : Nat) : Option Byte :=
  readCell s.pay a

/-- `MemWrite(PAY, a, 1, b)` (00_scope.md R14): `PAY` after storing one byte. -/
def payWrite (s : State) (a : BitVec 32) (b : Byte) : List Host.Cell :=
  writeCell s.pay a.toNat b

/-- The platform places one word of the grid (70_reset_and_hazards.md R253 step 1; log 7). -/
def placeCoefficient (row col : BitVec 16) (w : CoefWord) (s : State) : State :=
  { s with coef := writeCell s.coef (row ++ col).toNat w }

/-! ### Turns and answers (the model's own fields) -/

/-- The turn that is being taken leaves the list. -/
def popTurn (s : State) : State :=
  { s with turns := s.turns.tail }

/-- A read transaction returns `rdata` to the host and changes no register (30_encoding.md R97,
41_host_operations.md R140; log 9). -/
def respond (rdata : Word) (s : State) : State :=
  { s with reads := s.reads ++ [rdata] }

/-- A transaction that selects no row (30_encoding.md R103): a write to a read-only register or to no register is
ignored, a read of no register returns 0 (41_host_operations.md R149, R150). -/
def reservedAccess : TReject → State → State
  | .readOnlyWrite _, s => s
  | .unmappedWrite _, s => s
  | .unmappedRead _, s => respond 0 s

/-! ### Registers -/

/-- `operation_init()` (41_host_operations.md R146): every register but `PHASE`, `GRID_H` and `GRID_W` at its reset
value. It is also how an error state is left (60_exceptions.md R229). -/
def operationInit (s : State) : State :=
  { s with
    bY := 0, bX := 0, k := 1
    fph := .hdr, hdrCnt := 0, len := 0, rem := 0, shreg := 0, nb := 0
    bitCount := 0, outCnt := 0
    outLen := 0, errCode := .none, underrun := false }

/-- Hardware reset as an event (70_reset_and_hazards.md R250 to R252): every register at its reset value, `COEF`
and `PAY` untouched, the policy as it is (R251). The turns and answers are the host's and stay. -/
def hardwareReset (s : State) : State :=
  { State.reset with coef := s.coef, pay := s.pay, policy := s.policy, turns := s.turns, reads := s.reads }

/-- `K` after `advance()` (42_scanner.md R168). -/
def nextK (s : State) : BitVec 6 :=
  if s.k.toNat < 63 then s.k + 1 else 1

/-- Whether the band has another block to the right: `BX + 8 < GRID_W`, without wrap-around (42_scanner.md
R168). -/
def moreBlocks (s : State) : Bool :=
  decide (s.bX.toNat + 8 < s.gridW.toNat)

/-- `BX` after `advance()` (42_scanner.md R168). -/
def nextBX (s : State) : BitVec 17 :=
  if s.k.toNat < 63 then s.bX else if moreBlocks s then s.bX + 8 else 0

/-- `BY` after `advance()` (42_scanner.md R168). -/
def nextBY (s : State) : BitVec 17 :=
  if s.k.toNat < 63 then s.bY else if moreBlocks s then s.bY else s.bY + 8

/-- `advance()` (42_scanner.md R168): the next scan index, or the next block of the band, or the next band. -/
def advance (s : State) : State :=
  { s with k := nextK s, bX := nextBX s, bY := nextBY s }

/-- The emit part that every usable coefficient has: one more bit extracted (43_filter_extractor.md R183). -/
def countBit (s : State) : State :=
  { s with bitCount := s.bitCount + 1 }

/-! ### Errors -/

/-- Taking an error (60_exceptions.md R227): `ERRCODE` and `OUT_LEN` are written, for `TruncatedPayload` also
`UNDERRUN`, and `PHASE` becomes `DONE`. Nothing is saved and control goes nowhere. -/
def raiseFraming (e : ErrCode) (s : State) : State :=
  { s with
    errCode := e
    outLen := 0
    underrun := if e = .truncatedPayload then true else s.underrun
    phase := .done }

end Sys2Proof.Machine
end

