-- ==== Sys2Proof/Machine/Zigzag.lean ====
section
/-! DEFINITION. The constant `ZIGZAG` (10_state.md R40, 00_scope.md R10). -/

namespace Sys2Proof.Machine

/-- The 64 entries of `ZIGZAG` as `8 * r + c` for `k = 0 .. 63` (10_state.md R40; UNVERIFIED against the source,
which prints no table, log 3). -/
def zigzagTable : List Nat :=
  [0, 1, 8, 16, 9, 2, 3, 10] ++ [17, 24, 32, 25, 18, 11, 4, 5] ++
  [12, 19, 26, 33, 40, 48, 41, 34] ++ [27, 20, 13, 6, 7, 14, 21, 28] ++
  [35, 42, 49, 56, 57, 50, 43, 36] ++ [29, 22, 15, 23, 30, 37, 44, 51] ++
  [58, 59, 52, 45, 38, 31, 39, 46] ++ [53, 60, 61, 54, 47, 55, 62, 63]

/-- `ZIGZAG[k] = (r, c)`: a ROM of 6-bit words, `r` in bits 5:3 and `c` in bits 2:0 (10_state.md R40). -/
def zigzag (k : Nat) : Nat × Nat :=
  (zigzagTable.getD k 0 / 8, zigzagTable.getD k 0 % 8)

/-- One anti-diagonal `r + c = d` of an 8 by 8 block, in the direction 10_state.md R41 gives it: `r` falls when
`d` is even and rises when `d` is odd. -/
def zigzagDiagonal (d : Nat) : List (Nat × Nat) :=
  let rising := ((List.range 8).filter fun r => r ≤ d && d - r ≤ 7).map fun r => (r, d - r)
  if d % 2 = 0 then rising.reverse else rising

/-- The procedure of 10_state.md R41 that generates the table. -/
def zigzagGenerated : List (Nat × Nat) :=
  (List.range 15).flatMap zigzagDiagonal

end Sys2Proof.Machine
end

