-- ==== Sys2Proof/Machine/Operands.lean ====
section
/-! DEFINITION. What the operations compute on: the scan position, the coefficient, the bit, the step selector. -/

namespace Sys2Proof.Machine

/-- The value written to `GRID_H` or `GRID_W`: `wdata[15:0]` (30_encoding.md R97). -/
def dimensionOf (wdata : Word) : BitVec 16 :=
  wdata.extractLsb' 0 16

/-- The row the sequencer is at, `BY + r` with `(r, c) = ZIGZAG[K]`, without wrap-around (42_scanner.md R164). -/
def scanRow (s : State) : Nat :=
  s.bY.toNat + (zigzag s.k.toNat).1

/-- The column the sequencer is at, `BX + c` (42_scanner.md R164). -/
def scanCol (s : State) : Nat :=
  s.bX.toNat + (zigzag s.k.toNat).2

/-- Exhaustion: `GRID_W = 0` or `BY >= GRID_H` (42_scanner.md R169). -/
def exhausted (s : State) : Bool :=
  decide (s.gridW = 0) || decide (s.gridH.toNat ≤ s.bY.toNat)

/-- Presence: `row < GRID_H` and `col < GRID_W` (42_scanner.md R165). -/
def present (s : State) : Bool :=
  decide (scanRow s < s.gridH.toNat) && decide (scanCol s < s.gridW.toNat)

/-- The coefficient at the scan position (42_scanner.md R167). -/
def scanWord (s : State) : CoefWord :=
  coefRead s (coefAddress (scanRow s) (scanCol s))

/-- The `COEF` access of a sequencer step from this state: the address it reads, if it reads (42_scanner.md R160,
R161, R166, R167). -/
def coefAccess (s : State) : Option (BitVec 32) :=
  if decide (s.phase = .busy) && !exhausted s && present s then some (coefAddress (scanRow s) (scanCol s)) else none

/-- `signed(w)`: the integer a coefficient word stands for (00_scope.md R12, 30_encoding.md R95). -/
def signedValue (w : CoefWord) : Int :=
  w.toInt

/-- `usable(v)`: `abs(v) > 1`, on the exact magnitude (43_filter_extractor.md R180, R185). -/
def usable (v : Int) : Bool :=
  decide (1 < v.natAbs)

/-- `bit(v)`: `abs(v) & 1` (43_filter_extractor.md R181). -/
def bitOf (v : Int) : Bool :=
  decide (v.natAbs % 2 = 1)

/-- The bit the coefficient at the scan position carries (43_filter_extractor.md R183). -/
def scanBit (s : State) : Bool :=
  bitOf (signedValue (scanWord s))

/-- `FPH` as the number 10_state.md R27 gives it. -/
def framerCode : FramerPhase → BitVec 2
  | .hdr => 0
  | .pay => 1
  | .drain => 2

/-- The `S` word of a state (30_encoding.md R100): `EXH ‖ PRES ‖ USE ‖ FPH`. A bit that is not meaningful, `PRES`
when `EXH = 1` and `USE` when no coefficient is read, is 0 (log 10). -/
def selector (s : State) : SWord :=
  if exhausted s then BitVec.ofBool true ++ 0#2 ++ framerCode s.fph
  else if present s then
    BitVec.ofBool false ++ BitVec.ofBool true ++ BitVec.ofBool (usable (signedValue (scanWord s))) ++ framerCode s.fph
  else 0#3 ++ framerCode s.fph

end Sys2Proof.Machine
end

