-- ==== Sys2Proof/Machine/Framer.lean ====
section
/-! DEFINITION. The framer's operations (44_framer.md). Which one a step is, is decided by its `S` word
(Machine/Turns.lean); the meanings below are the operations' bodies (log 11). -/

namespace Sys2Proof.Machine

/-- `LEN` with one more header bit: `(LEN << 1 | b)[31:0]` (44_framer.md R191, 30_encoding.md R91). -/
def pushedLen (b : Bool) (s : State) : BitVec 32 :=
  (s.len <<< 1) ||| (BitVec.ofBool b).zeroExtend 32

/-- Whether the next header bit is the 32nd (44_framer.md R191). -/
def completesHeader (s : State) : Bool :=
  decide (s.hdrCnt + 1 = 32)

/-- The body of `EMIT_HDR` (44_framer.md R191). -/
def headerBit (b : Bool) (s : State) : State :=
  { s with
    len := pushedLen b s
    hdrCnt := s.hdrCnt + 1
    rem := if completesHeader s then (pushedLen b s).zeroExtend 35 <<< 3 else s.rem
    fph := if completesHeader s then (if pushedLen b s = 0 then .drain else .pay) else s.fph }

/-- `SHREG` with one more payload bit: `(SHREG << 1 | b)[7:0]` (44_framer.md R193, 30_encoding.md R92). -/
def pushedByte (b : Bool) (s : State) : Byte :=
  (s.shreg <<< 1) ||| (BitVec.ofBool b).zeroExtend 8

/-- Whether the next payload bit completes a byte (44_framer.md R193). -/
def completesByte (s : State) : Bool :=
  decide (s.nb = 7)

/-- The body of `EMIT_PAY` (44_framer.md R193). -/
def payloadBit (b : Bool) (s : State) : State :=
  { s with
    rem := s.rem - 1
    pay := if completesByte s then payWrite s s.outCnt (pushedByte b s) else s.pay
    outCnt := if completesByte s then s.outCnt + 1 else s.outCnt
    shreg := if completesByte s then 0 else pushedByte b s
    nb := if completesByte s then 0 else s.nb + 1
    fph := if s.rem - 1 = 0 then .drain else s.fph }

/-- `EMIT_HDR` (44_framer.md R191 after the common part of 43_filter_extractor.md R183). -/
def execEmitHdr (s : State) : Host.Outcome State Fault Refusal :=
  .next (advance (headerBit (scanBit s) (countBit s)))

/-- `EMIT_PAY` (44_framer.md R193 after the common part of 43_filter_extractor.md R183). -/
def execEmitPay (s : State) : Host.Outcome State Fault Refusal :=
  .next (advance (payloadBit (scanBit s) (countBit s)))

/-- `EMIT_DRAIN` (44_framer.md R195): the bit is counted and discarded. -/
def execEmitDrain (s : State) : Host.Outcome State Fault Refusal :=
  .next (advance (countBit s))

/-- Outcome `Complete` (44_framer.md R201, R204). -/
def finishComplete (s : State) : State :=
  { s with outLen := s.outCnt, phase := .done }

/-- A partial byte of `NB` bits padded on the right with zeros: `(SHREG << (8 - NB))[7:0]` (44_framer.md R202,
20_memory.md R66). -/
def paddedByte (s : State) : Byte :=
  s.shreg <<< (8 - s.nb.toNat)

/-- Whether a partial byte is waiting to be flushed (44_framer.md R202). -/
def partialByte (s : State) : Bool :=
  decide (s.nb ≠ 0)

/-- Outcome `PadUnderrun` (44_framer.md R202, R204). -/
def finishPad (s : State) : State :=
  { s with
    underrun := true
    pay := if partialByte s then payWrite s s.outCnt (paddedByte s) else s.pay
    outLen := if partialByte s then s.outCnt + 1 else s.outCnt
    outCnt := if partialByte s then s.outCnt + 1 else s.outCnt
    shreg := if partialByte s then 0 else s.shreg
    nb := if partialByte s then 0 else s.nb
    phase := .done }

/-- `FINISH` (44_framer.md R199): one of four outcomes, tested in this order. -/
def execFinish (s : State) : Host.Outcome State Fault Refusal :=
  .next (
    if s.hdrCnt.toNat < 32 then raiseFraming .insufficientHeader s
    else if s.rem = 0 then finishComplete s
    else if s.policy = .pad then finishPad s
    else raiseFraming .truncatedPayload s)

end Sys2Proof.Machine
end

