-- ==== Sys2Proof/Machine/Flags.lean ====
section
/-! DEFINITION. The five flags of `STATUS` and the word a read assembles from them (10_state.md R39, R42). -/

namespace Sys2Proof.Machine

/-- `STATUS.BUSY`. -/
def flagBusy (s : State) : Bool := decide (s.phase = .busy)

/-- `STATUS.DONE`. -/
def flagDone (s : State) : Bool := decide (s.phase = .done)

/-- `STATUS.ERR`: `ERRCODE != 0`. -/
def flagErr (s : State) : Bool := decide (s.errCode ≠ .none)

/-- `STATUS.UNDERRUN`: the register itself. -/
def flagUnderrun (s : State) : Bool := s.underrun

/-- `STATUS.HDR_OK`: `HDRCNT = 32`. -/
def flagHdrOk (s : State) : Bool := decide (s.hdrCnt = 32)

/-- `ERRCODE` as the number 10_state.md R36 gives it. -/
def errNumber : ErrCode → BitVec 4
  | .none => 0
  | .insufficientHeader => 1
  | .truncatedPayload => 2

/-- `STATUS` at the moment of a read: `ERRCODE` in 11:8, zeros in 7:5, then `HDR_OK`, `UNDERRUN`, `ERR`, `DONE`,
`BUSY`, widened with zeros (41_host_operations.md R152). -/
def statusWord (s : State) : Word :=
  0#20 ++ errNumber s.errCode ++ 0#3 ++ BitVec.ofBool (flagHdrOk s) ++ BitVec.ofBool (flagUnderrun s) ++
    BitVec.ofBool (flagErr s) ++ BitVec.ofBool (flagDone s) ++ BitVec.ofBool (flagBusy s)

end Sys2Proof.Machine
end

