-- ==== Sys2Proof/Machine/HostRead.lean ====
section
/-! DEFINITION. The host's reads (41_host_operations.md section 3): each returns the value the state holds at the
moment of the transaction, in every phase, and changes no register (R140). -/

namespace Sys2Proof.Machine

/-- `RD_CTRL` (41_host_operations.md R151): 0 always. -/
def execRdCtrl (_wdata : Word) (s : State) : Host.Outcome State Fault Refusal :=
  .next (respond 0 s)

/-- `RD_STATUS` (41_host_operations.md R152). -/
def execRdStatus (_wdata : Word) (s : State) : Host.Outcome State Fault Refusal :=
  .next (respond (statusWord s) s)

/-- `RD_GRID_H` (41_host_operations.md R153): `zext_32(GRID_H)`. -/
def execRdGridH (_wdata : Word) (s : State) : Host.Outcome State Fault Refusal :=
  .next (respond (s.gridH.zeroExtend 32) s)

/-- `RD_GRID_W` (41_host_operations.md R154): `zext_32(GRID_W)`. -/
def execRdGridW (_wdata : Word) (s : State) : Host.Outcome State Fault Refusal :=
  .next (respond (s.gridW.zeroExtend 32) s)

/-- `RD_LEN` (41_host_operations.md R155). -/
def execRdLen (_wdata : Word) (s : State) : Host.Outcome State Fault Refusal :=
  .next (respond s.len s)

/-- `RD_OUT_LEN` (41_host_operations.md R156). -/
def execRdOutLen (_wdata : Word) (s : State) : Host.Outcome State Fault Refusal :=
  .next (respond s.outLen s)

/-- `RD_BIT_COUNT` (41_host_operations.md R157). -/
def execRdBitCount (_wdata : Word) (s : State) : Host.Outcome State Fault Refusal :=
  .next (respond s.bitCount s)

end Sys2Proof.Machine
end

