-- ==== Sys2Proof/Machine/HostWrite.lean ====
section
/-! DEFINITION. The host's writes (41_host_operations.md section 2). -/

namespace Sys2Proof.Machine

/-- `START` (41_host_operations.md R144, R147, R148): outside `BUSY`, `operation_init()` and `PHASE <- BUSY`. -/
def execStart (_wdata : Word) (s : State) : Host.Outcome State Fault Refusal :=
  .next (if s.phase = .busy then s else { operationInit s with phase := .busy })

/-- `CLEAR` (41_host_operations.md R145, R148): outside `BUSY`, `operation_init()` and `PHASE <- IDLE`. -/
def execClear (_wdata : Word) (s : State) : Host.Outcome State Fault Refusal :=
  .next (if s.phase = .busy then s else { operationInit s with phase := .idle })

/-- `CTRL_NOP` (41_host_operations.md R158): nothing. -/
def execCtrlNop (_wdata : Word) (s : State) : Host.Outcome State Fault Refusal :=
  .next s

/-- `WR_GRID_H` (41_host_operations.md R141): outside `BUSY`, `GRID_H <- wdata[15:0]`. -/
def execWrGridH (wdata : Word) (s : State) : Host.Outcome State Fault Refusal :=
  .next (if s.phase = .busy then s else { s with gridH := dimensionOf wdata })

/-- `WR_GRID_W` (41_host_operations.md R142): outside `BUSY`, `GRID_W <- wdata[15:0]`. -/
def execWrGridW (wdata : Word) (s : State) : Host.Outcome State Fault Refusal :=
  .next (if s.phase = .busy then s else { s with gridW := dimensionOf wdata })

end Sys2Proof.Machine
end

