-- ==== Sys2Proof/Machine/Scanner.lean ====
section
/-! DEFINITION. The scanner's own operations: positions that yield no bit. Which operation a step is, is decided by
its `S` word (Machine/Turns.lean); the meanings below are the operations' bodies (log 11). -/

namespace Sys2Proof.Machine

/-- `VISIT_ABSENT` (42_scanner.md R166): `advance()` and nothing else. -/
def execVisitAbsent (s : State) : Host.Outcome State Fault Refusal :=
  .next (advance s)

/-- `VISIT_SKIP` (43_filter_extractor.md R182): `advance()` and nothing else; the coefficient that its `S` word was
computed from is dropped. -/
def execVisitSkip (s : State) : Host.Outcome State Fault Refusal :=
  .next (advance s)

end Sys2Proof.Machine
end

