-- ==== Sys2Proof/Machine/Dispatch.lean ====
section
/-! DEFINITION. One arm per operation, each one direct call of its meaning. -/

namespace Sys2Proof.Machine

def exec (i : Instr) (s : State) : Host.Outcome State Fault Refusal :=
  match i with
  | .start wdata => Sys2Proof.Machine.execStart wdata s
  | .clear wdata => Sys2Proof.Machine.execClear wdata s
  | .ctrlNop wdata => Sys2Proof.Machine.execCtrlNop wdata s
  | .wrGridH wdata => Sys2Proof.Machine.execWrGridH wdata s
  | .wrGridW wdata => Sys2Proof.Machine.execWrGridW wdata s
  | .rdCtrl wdata => Sys2Proof.Machine.execRdCtrl wdata s
  | .rdStatus wdata => Sys2Proof.Machine.execRdStatus wdata s
  | .rdGridH wdata => Sys2Proof.Machine.execRdGridH wdata s
  | .rdGridW wdata => Sys2Proof.Machine.execRdGridW wdata s
  | .rdLen wdata => Sys2Proof.Machine.execRdLen wdata s
  | .rdOutLen wdata => Sys2Proof.Machine.execRdOutLen wdata s
  | .rdBitCount wdata => Sys2Proof.Machine.execRdBitCount wdata s
  | .finish => Sys2Proof.Machine.execFinish s
  | .visitAbsent => Sys2Proof.Machine.execVisitAbsent s
  | .visitSkip => Sys2Proof.Machine.execVisitSkip s
  | .emitHdr => Sys2Proof.Machine.execEmitHdr s
  | .emitPay => Sys2Proof.Machine.execEmitPay s
  | .emitDrain => Sys2Proof.Machine.execEmitDrain s

end Sys2Proof.Machine
end

