-- ==== Sys2Proof/Machine/Turns.lean ====
section
/-! DEFINITION. One turn of each agent: what it takes as its next operation, and how it performs it. -/

namespace Sys2Proof.Machine

/-- A host transaction (41_host_operations.md R140): the operation its `T` word selects, or the effect of a
reserved transaction (30_encoding.md R103; log 12). -/
def hostTurn (t : TWord) (s : State) : Host.Outcome State Fault Refusal :=
  match decodeT t with
  | .ok i => exec i s
  | .error e => .next (reservedAccess e s)

/-- The sequencer's turn (42_scanner.md R160): while `PHASE = BUSY` the operation its `S` word selects, else
nothing. -/
def sequencerTurn (s : State) : Host.Outcome State Fault Refusal :=
  match s.phase with
  | .idle => .next s
  | .done => .next s
  | .busy =>
    match decodeS (selector s) with
    | .ok i => exec i s
    | .error _ => .refused .reservedSelector

/-- The next turn of the list, taken from it first; with no turn left it is the sequencer's (00_scope.md R16,
70_reset_and_hazards.md R260; log 4). -/
def takeTurn (s : State) : Host.Outcome State Fault Refusal :=
  match s.turns with
  | [] => sequencerTurn s
  | .sequencer :: _ => sequencerTurn (popTurn s)
  | .host t :: _ => hostTurn t (popTurn s)
  | .coefWrite row col w :: _ => .next (placeCoefficient row col w (popTurn s))
  | .hardReset :: _ => .next (hardwareReset (popTurn s))

/-- The framer phase an `S` word names, if it names one. -/
def framerOf (w : SWord) (otherwise : FramerPhase) : FramerPhase :=
  if w.extractLsb' 0 2 = 0#2 then .hdr
  else if w.extractLsb' 0 2 = 1#2 then .pay
  else if w.extractLsb' 0 2 = 2#2 then .drain
  else otherwise

/-- The state in which the host's next transaction is `t`. -/
def placeTransaction (t : TWord) (s : State) : State :=
  { s with turns := .host t :: s.turns }

/-- The state in which the sequencer acts next and its `S` word selects the row of `w` (log 13): an operation is
running; for `EXH` the grid has no column; for an absent position it is 1 by 1 and `K = 1`; for a present one it is
8 by 8 and the coefficient at scan index 1, position `(0, 1)`, is 2 or 0 as `USE` says. -/
def placeSelector (w : SWord) (s : State) : State :=
  let s := { s with turns := .sequencer :: s.turns, phase := .busy }
  if w.getLsbD 4 then { s with gridW := 0 }
  else if !w.getLsbD 3 then { s with gridH := 1, gridW := 1, bY := 0, bX := 0, k := 1 }
  else
    { s with
      gridH := 8, gridW := 8, bY := 0, bX := 0, k := 1
      fph := framerOf w s.fph
      coef := writeCell s.coef (coefAddress 0 1).toNat (if w.getLsbD 2 then 2 else 0) }

/-- The state whose very next step runs the word `w` of a row of `nbits` bits (log 13). -/
def placeWord (nbits w : Nat) (s : State) : State :=
  if nbits ≤ 8 then placeSelector (BitVec.ofNat 5 w) s else placeTransaction (BitVec.ofNat 41 w) s

end Sys2Proof.Machine
end

