-- ==== Sys2Proof/Machine/Program.lean ====
section
/-! DEFINITION. The notation for host programs (30_encoding.md R106, R107), as lists of turns. -/

namespace Sys2Proof.Machine

/-- A register name of a program line, or a numeric address (30_encoding.md R106). -/
inductive Reg
  | ctrl
  | status
  | gridH
  | gridW
  | len
  | outLen
  | bitCount
  | at (addr : BitVec 8)
  deriving DecidableEq, Repr

/-- The address of a register (10_state.md R38). -/
def regAddress : Reg → BitVec 8
  | .ctrl => 0x00
  | .status => 0x04
  | .gridH => 0x08
  | .gridW => 0x0C
  | .len => 0x10
  | .outLen => 0x14
  | .bitCount => 0x18
  | .at addr => addr

/-- One line of a program (30_encoding.md R106). -/
inductive Line
  | wr (reg : Reg) (value : Word)
  | rd (reg : Reg)
  | start
  | clear
  | step (n : Nat)
  deriving DecidableEq, Repr

/-- The turns of a line: a transaction, or `n` steps of the sequencer. `START` and `CLEAR` are `WR CTRL, 1` and
`WR CTRL, 2`; the `wdata` of a read is 0. -/
def lineTurns : Line → List Turn
  | .wr reg value => [.host (tWord true (regAddress reg) value)]
  | .rd reg => [.host (tWord false (regAddress reg) 0)]
  | .start => [.host (tWord true 0x00 1)]
  | .clear => [.host (tWord true 0x00 2)]
  | .step n => List.replicate n .sequencer

/-- `SETDIM h, w` (30_encoding.md R107). -/
def setDim (h w : Word) : List Line := [.wr .gridH h, .wr .gridW w]

/-- `WAIT` (30_encoding.md R107): a read of `STATUS` after each of the given numbers of sequencer steps. How many
reads there are and how far apart is the interleaving's choice; the wait is over when the last read has `DONE`
(log 14). -/
def waitLines (gaps : List Nat) : List Line :=
  gaps.flatMap fun n => [.step n, .rd .status]

/-- `RUN` (30_encoding.md R107). -/
def runLines (gaps : List Nat) : List Line := .start :: waitLines gaps

/-- `RESULT` (30_encoding.md R107). -/
def resultLines : List Line := [.rd .status, .rd .len, .rd .outLen, .rd .bitCount]

/-- The state with a program's turns after the turns it has. -/
def withProgram (lines : List Line) (s : State) : State :=
  { s with turns := s.turns ++ lines.flatMap lineTurns }

end Sys2Proof.Machine
end

