-- ==== Sys2Proof/Machine/Reference.lean ====
section
/-! DEFINITION. What CORE computes without any machine: the source's `extract` and `decode` as pure functions
(40_reference_functions.md). Bits are Booleans, 1 is `true`; byte values are numbers below 256. -/

namespace Sys2Proof.Machine

/-- `ceil(n / 8)`. -/
def ceil8 (n : Nat) : Nat := (n + 7) / 8

/-- `0, 8, 16, ...` while below `n` (40_reference_functions.md R121). -/
def bandOrigins (n : Nat) : List Nat :=
  (List.range (ceil8 n)).map (8 * ·)

/-- `origins(H, W)`: the block origins `(by, bx)` in row-major order (40_reference_functions.md R121). -/
def origins (height width : Nat) : List (Nat × Nat) :=
  (bandOrigins height).flatMap fun y => (bandOrigins width).map fun x => (y, x)

/-- The present positions of one block in scan order, scan indices 1 to 63 (40_reference_functions.md R122,
42_scanner.md R163, R165). -/
def blockPositions (height width : Nat) (origin : Nat × Nat) : List (Nat × Nat) :=
  ((List.range' 1 63).map fun k => (origin.1 + (zigzag k).1, origin.2 + (zigzag k).2)).filter
    fun p => decide (p.1 < height) && decide (p.2 < width)

/-- The bit a value contributes, if it contributes one (30_encoding.md R94, 43_filter_extractor.md R180, R181). -/
def symbolBit (v : Int) : Option Bool :=
  if usable v then some (bitOf v) else none

/-- `block_bits(H, W, g, by, bx)` (40_reference_functions.md R122). -/
def blockBits (height width : Nat) (g : Nat → Nat → Int) (origin : Nat × Nat) : List Bool :=
  (blockPositions height width origin).filterMap fun p => symbolBit (g p.1 p.2)

/-- `extract(H, W, g)` (40_reference_functions.md R123). -/
def extract (height width : Nat) (g : Nat → Nat → Int) : List Bool :=
  (origins height width).flatMap (blockBits height width g)

/-- The positions of the whole grid that are read, in order (42_scanner.md R172). -/
def scanPositions (height width : Nat) : List (Nat × Nat) :=
  (origins height width).flatMap (blockPositions height width)

/-- A bit list as a number, the first bit the most significant: `sum s[i] * 2^(|s| - 1 - i)` (30_encoding.md R91,
40_reference_functions.md R126, R129). -/
def bitsValue (s : List Bool) : Nat :=
  ((List.range s.length).map fun i => (s.getD i false).toNat * 2 ^ (s.length - 1 - i)).sum

/-- Byte `j` of `pack(p)`: `sum over t in 0..7 of p'[8j + t] * 2^(7 - t)`, a bit beyond the end being 0
(40_reference_functions.md R125, 30_encoding.md R92). -/
def packByte (p : List Bool) (j : Nat) : Nat :=
  ((List.range 8).map fun t => (p.getD (8 * j + t) false).toNat * 2 ^ (7 - t)).sum

/-- `pack(p)` (40_reference_functions.md R125). -/
def pack (p : List Bool) : List Nat :=
  (List.range (ceil8 p.length)).map (packByte p)

/-- The two framing errors (00_scope.md R15). -/
inductive FramingError
  | insufficientHeader
  | truncatedPayload
  deriving DecidableEq, Repr

/-- What `decode` returns: a payload with the sign of an underrun, or an error (40_reference_functions.md R126). -/
inductive Decoded
  | ok (bytes : List Nat) (underrun : Bool)
  | err (e : FramingError)
  deriving DecidableEq, Repr

/-- The declared length: the first 32 bits as a number (40_reference_functions.md R126). -/
def declaredLength (s : List Bool) : Nat :=
  bitsValue (s.take 32)

/-- `decode(s)` (40_reference_functions.md R126). -/
def decodeFrame (policy : Config.UnderrunPolicy) (s : List Bool) : Decoded :=
  if s.length < 32 then .err .insufficientHeader
  else if 8 * declaredLength s ≤ s.length - 32 then
    .ok (pack ((s.drop 32).take (8 * declaredLength s))) false
  else
    match policy with
    | .strict => .err .truncatedPayload
    | .pad => .ok (pack (s.drop 32)) true

/-- The low `n` bits of `v`, most significant first (40_reference_functions.md R130 item 5: `be32` is `n = 32`, the
bits of a byte are `n = 8`). -/
def bitsOf (n v : Nat) : List Bool :=
  (List.range n).map fun i => v.testBit (n - 1 - i)

/-- The grid a state holds: `g(row, col) = signed(MemRead(COEF, (row, col), 1))` (40_reference_functions.md
R120). -/
def gridOf (s : State) (row col : Nat) : Int :=
  signedValue (coefRead s (coefAddress row col))

/-- The number of visiting steps of an operation: `63 * ceil(H / 8) * ceil(W / 8)` (42_scanner.md R170). -/
def visitCount (height width : Nat) : Nat :=
  63 * ceil8 height * ceil8 width

end Sys2Proof.Machine
end

