-- ==== Sys2Proof/Safety.lean ====
section
/-! DEFINITION. The terms claims use: the invariants of 10_state.md R44, what a quiet run is, and what an operation
shows on the coefficient port. -/

namespace Sys2Proof.Safety

open Sys2Proof.Machine

/-- How many scan positions the running operation has visited: 63 for each whole block before the current one, and
those of the current block below `K` (42_scanner.md R162, R163). -/
def visited (s : State) : Nat :=
  63 * (s.bY.toNat / 8 * ceil8 s.gridW.toNat + s.bX.toNat / 8) + (s.k.toNat - 1)

/-- The four ends of an operation (44_framer.md R206), as the registers hold them in `DONE`, with what R201 to R203
leave in the framer's registers: `OUTCNT`, `NB`, and `REM` as the shortfall in bits. -/
abbrev Ended (s : State) : Prop :=
  (s.hdrCnt.toNat < 32 ∧ s.errCode = .insufficientHeader ∧ s.underrun = false ∧ s.outLen = 0) ∨
  (s.hdrCnt.toNat = 32 ∧ s.rem = 0 ∧ s.errCode = .none ∧ s.underrun = false ∧ s.outLen = s.len ∧
    s.outCnt = s.len ∧ s.nb = 0) ∨
  (s.hdrCnt.toNat = 32 ∧ s.rem ≠ 0 ∧ s.policy = .pad ∧ s.errCode = .none ∧ s.underrun = true ∧
    s.outLen.toNat = ceil8 (s.bitCount.toNat - 32) ∧ s.outCnt = s.outLen ∧ s.nb = 0 ∧
    s.bitCount.toNat - 32 + s.rem.toNat = 8 * s.len.toNat) ∨
  (s.hdrCnt.toNat = 32 ∧ s.rem ≠ 0 ∧ s.policy = .strict ∧ s.errCode = .truncatedPayload ∧ s.underrun = true ∧
    s.outLen = 0 ∧ 8 * s.outCnt.toNat + s.nb.toNat + s.rem.toNat = 8 * s.len.toNat)

/-- The invariants of 10_state.md R44, with what makes them inductive: where the scan is while `BUSY`, that no more
bits than visits have been counted, and that both memories keep their canonical form. -/
structure CoreInv (s : State) : Prop where
  /-- R44: `BY mod 8 = 0`. -/
  bY_aligned : s.bY.toNat % 8 = 0
  /-- R44: `BX mod 8 = 0`. -/
  bX_aligned : s.bX.toNat % 8 = 0
  /-- R44: `1 <= K` (`K <= 63` is its width). -/
  k_pos : 1 ≤ s.k.toNat
  /-- R44: `HDRCNT = min(BIT_COUNT, 32)`. -/
  hdrCnt_eq : s.hdrCnt.toNat = min s.bitCount.toNat 32
  /-- R44: `FPH = HDR` exactly when `HDRCNT < 32`. -/
  fph_hdr : s.fph = .hdr ↔ s.hdrCnt.toNat < 32
  /-- R44: `8 * OUTCNT + NB + REM = 8 * LEN` until `FINISH`. -/
  balance : s.phase ≠ .done → s.hdrCnt.toNat = 32 →
    8 * s.outCnt.toNat + s.nb.toNat + s.rem.toNat = 8 * s.len.toNat
  /-- R44: with a header, `FPH = PAY` exactly when `REM > 0`. -/
  fph_pay : s.hdrCnt.toNat = 32 → (s.fph = .pay ↔ s.rem ≠ 0)
  /-- R44: with a header, `FPH = DRAIN` exactly when `REM = 0`. -/
  fph_drain : s.hdrCnt.toNat = 32 → (s.fph = .drain ↔ s.rem = 0)
  /-- R44: `NB = 0` in `DRAIN`. -/
  drain_nb : s.fph = .drain → s.nb = 0
  /-- R44: before the header is complete nothing else has moved. -/
  header_pending : s.hdrCnt.toNat < 32 →
    s.rem = 0 ∧ s.nb = 0 ∧ s.shreg = 0 ∧ s.outCnt = 0 ∧ s.len.toNat < 2 ^ s.hdrCnt.toNat
  /-- R44: `SHREG < 2^NB`. -/
  shreg_lt : s.shreg.toNat < 2 ^ s.nb.toNat
  /-- R44: no result outside `DONE`. -/
  no_result : s.phase ≠ .done → s.outLen = 0 ∧ s.errCode = .none ∧ s.underrun = false
  /-- R44: in `IDLE` every register but `GRID_H` and `GRID_W` holds its reset value. -/
  idle_reset : s.phase = .idle → operationInit s = s
  /-- `OUTCNT <= LEN` (44_framer.md R198). -/
  outCnt_le : s.outCnt.toNat ≤ s.len.toNat
  /-- While payload bits are expected, every bit counted is a header bit or in `OUTCNT` and `NB`. -/
  pay_count : s.phase ≠ .done → s.fph = .pay → s.bitCount.toNat = 32 + 8 * s.outCnt.toNat + s.nb.toNat
  /-- In `DONE` the registers show one of the four ends. -/
  ended : s.phase = .done → Ended s
  /-- While `BUSY` no more bits than visits (00_scope.md R8: `BIT_COUNT` cannot overflow). -/
  busy_count : s.phase = .busy → s.bitCount.toNat ≤ visited s
  /-- While `BUSY` the block lies in the band (10_state.md R25), but for the grid with no column. -/
  busy_block : s.phase = .busy → s.bX.toNat < s.gridW.toNat ∨ (s.gridW = 0 ∧ s.bX = 0 ∧ s.k = 1)
  /-- While `BUSY` the band starts at most one band past the grid (42_scanner.md R168). -/
  busy_band : s.phase = .busy → s.bY.toNat < s.gridH.toNat + 8
  /-- `COEF` is in canonical form. -/
  coef_wf : Memory.wf s.coef = true
  /-- `PAY` is in canonical form. -/
  pay_wf : Memory.wf s.pay = true

/-- A turn of the sequencer or of the host: in a run of such turns the grid does not change and no reset comes
(20_memory.md R78, 70_reset_and_hazards.md R254). -/
def Quiet : Turn → Prop
  | .sequencer => True
  | .host _ => True
  | .coefWrite _ _ _ => False
  | .hardReset => False

/-- The turn a state takes next. -/
def nextTurn (s : State) : Turn :=
  s.turns.headD .sequencer

/-- The `COEF` address the next step reads, if it reads. -/
def stepAccess (s : State) : Option (BitVec 32) :=
  match nextTurn s with
  | .sequencer => coefAccess s
  | .host _ => none
  | .coefWrite _ _ _ => none
  | .hardReset => none

/-- The `COEF` addresses read in the next `n` steps, in order (42_scanner.md R172). -/
def accessTrace : Nat → State → List (BitVec 32)
  | 0, _ => []
  | n + 1, s =>
    (stepAccess s).toList ++
      match step s with
      | .next t => accessTrace n t
      | .fault _ => []
      | .refused _ => []

/-- The state after `advance()`, case by case as 42_scanner.md R168 writes it. -/
def scanAdvanced (s : State) : State :=
  if s.k.toNat < 63 then { s with k := s.k + 1 }
  else if s.bX.toNat + 8 < s.gridW.toNat then { s with k := 1, bX := s.bX + 8 }
  else { s with k := 1, bX := 0, bY := s.bY + 8 }

/-- The mathematical value of the coefficient at the scan position (42_scanner.md R164, R167). -/
def valueAt (s : State) : Int :=
  gridOf s (s.bY.toNat + (zigzag s.k.toNat).1) (s.bX.toNat + (zigzag s.k.toNat).2)

/-- The register map of 10_state.md R38, read: what a read transaction to `addr` returns. -/
def registerMap (s : State) (addr : BitVec 8) : Word :=
  if addr = 0x04#8 then statusWord s
  else if addr = 0x08#8 then s.gridH.zeroExtend 32
  else if addr = 0x0C#8 then s.gridW.zeroExtend 32
  else if addr = 0x10#8 then s.len
  else if addr = 0x14#8 then s.outLen
  else if addr = 0x18#8 then s.bitCount
  else 0

/-- Two states that agree on what the scan depends on: the phase, the position, the dimensions and the turns to
come. Their coefficients, framers and results may differ. -/
def ScanAgree (s t : State) : Prop :=
  s.phase = t.phase ∧ s.bY = t.bY ∧ s.bX = t.bX ∧ s.k = t.k ∧ s.gridH = t.gridH ∧ s.gridW = t.gridW ∧
    s.turns = t.turns

/-- The bytes of `PAY` above are what they were: `PAY` at and above `n` reads in `t` as in `s`. -/
def PayKeptFrom (n : Nat) (s t : State) : Prop :=
  ∀ a, n ≤ a → payRead t a = payRead s a

/-- `PAY` from address 0 holds the first `n` of these byte values. -/
def PayHolds (bytes : List Nat) (n : Nat) (t : State) : Prop :=
  ∀ i, i < n → payRead t i = some (BitVec.ofNat 8 (bytes.getD i 0))

/-- The host turns that write `CTRL` with one of its two command bits, `START` or `CLEAR` (30_encoding.md R98). -/
def Commands : Turn → Bool
  | .sequencer => false
  | .host t => tWe t && decide (tAddr t = 0x00#8) && ((tWdata t).getLsbD 0 || (tWdata t).getLsbD 1)
  | .coefWrite _ _ _ => false
  | .hardReset => false

end Sys2Proof.Safety
end

