-- ==== Sys2Proof/Certificates/Slice0/Obligations.lean ====
section
/-! DEFINITION. The statements for the provers. "The spec marks … as derived" means that the rule itself carries the
spec's mark [derived: …]. -/

open Sys2Proof Sys2Proof.Machine Sys2Proof.Safety

/-! ### Reset and the agents' turns -/

/-- 70_reset_and_hazards.md R250: after reset every register holds the value of its table, and the host reads 0 from
every register. -/
def Obligations.ResetRegisterValues : Prop :=
  State.reset.phase = .idle ∧ State.reset.gridH = 0 ∧ State.reset.gridW = 0 ∧ State.reset.bY = 0 ∧
  State.reset.bX = 0 ∧ State.reset.k = 1 ∧ State.reset.fph = .hdr ∧ State.reset.hdrCnt = 0 ∧ State.reset.len = 0 ∧
  State.reset.rem = 0 ∧ State.reset.shreg = 0 ∧ State.reset.nb = 0 ∧ State.reset.bitCount = 0 ∧
  State.reset.outCnt = 0 ∧ State.reset.outLen = 0 ∧ State.reset.errCode = .none ∧ State.reset.underrun = false ∧
  ∀ addr, registerMap State.reset addr = 0

/-- 70_reset_and_hazards.md R251, R252: hardware reset, in any phase, puts every register at its reset value, leaves
every `COEF` and `PAY` address and the policy as they are. That reset is a turn is the model's choice (log 8). -/
def Obligations.HardwareResetKeepsMemories : Prop :=
  ∀ (s : State) (rest : List Turn), s.turns = .hardReset :: rest →
    step s = .next { State.reset with
      coef := s.coef, pay := s.pay, policy := s.policy, turns := rest, reads := s.reads }

/-- The platform's turn (the model's choice, log 7): the word stands at its address `row ‖ col`, every other address
of `COEF` reads as before, nothing else changes. -/
def Obligations.PlatformPlacesOneWord : Prop :=
  ∀ (s : State) (row col : BitVec 16) (w : CoefWord) (rest : List Turn),
    s.turns = .coefWrite row col w :: rest →
    ∃ t, step s = .next t ∧ { t with coef := s.coef } = { s with turns := rest } ∧
      coefRead t (coefAddress row.toNat col.toNat) = w ∧
      ∀ r c : BitVec 16, (r, c) ≠ (row, col) →
        coefRead t (coefAddress r.toNat c.toNat) = coefRead s (coefAddress r.toNat c.toNat)

/-- A step runs the decoded operation: a host turn whose `T` word decodes performs that operation, on the state with
the turn taken from the list. That transactions come as turns is the model's choice (log 4). -/
def Obligations.HostTurnRunsDecodedOperation : Prop :=
  ∀ (s : State) (t : TWord) (rest : List Turn) (i : Instr), s.turns = .host t :: rest → decodeT t = .ok i →
    step s = exec i { s with turns := rest }

/-- 42_scanner.md R160 and a step runs the selected operation: in `BUSY` the sequencer's turn performs one of the six
operations, the one its `S` word selects; in `IDLE` and `DONE` it does nothing. The turn is the sequencer's when the
list says so and when the list is empty (the model's choice, log 4). -/
def Obligations.SequencerTurnRunsSelectedOperation : Prop :=
  ∀ (s : State), (s.turns = [] ∨ ∃ rest, s.turns = .sequencer :: rest) →
    (s.phase ≠ .busy → step s = .next { s with turns := s.turns.tail }) ∧
    (s.phase = .busy →
      ∃ i ∈ [Instr.finish, .visitAbsent, .visitSkip, .emitHdr, .emitPay, .emitDrain],
        decodeS (selector s) = .ok i ∧ step s = exec i { s with turns := s.turns.tail })

/-- 30_encoding.md R102: the `S` word with `FPH = 3` cannot occur, in any state at all; nor can `PHASE = 3` or an
`ERRCODE` of 3 to 15. -/
def Obligations.ReservedSelectorNeverOccurs : Prop :=
  ∀ s : State, (selector s).extractLsb' 0 2 ≠ 3#2 ∧ decodeS (selector s) ≠ .error .reservedPhase ∧
    (s.phase = .idle ∨ s.phase = .busy ∨ s.phase = .done) ∧ (statusWord s).toNat / 256 ≤ 2

/-- 42_scanner.md R161, the decision order of a step, with R165, R169 and 43_filter_extractor.md R180: which operation
the `S` word of a state selects. -/
def Obligations.SelectorFollowsDecisionOrder : Prop :=
  ∀ s : State, decodeS (selector s) = .ok (
    if s.gridW.toNat = 0 ∨ s.gridH.toNat ≤ s.bY.toNat then .finish
    else if s.gridH.toNat ≤ s.bY.toNat + (zigzag s.k.toNat).1 ∨ s.gridW.toNat ≤ s.bX.toNat + (zigzag s.k.toNat).2 then
      .visitAbsent
    else if (valueAt s).natAbs ≤ 1 then .visitSkip
    else match s.fph with
      | .hdr => .emitHdr
      | .pay => .emitPay
      | .drain => .emitDrain)

/-- The word placed by `withFetchWord` is what the very next step runs, from any state (log 13). -/
def Obligations.PlacedWordRunsNext : Prop :=
  ∀ (s : State) (nbits w : Nat) (i : Instr), decodeTableWord nbits w = some i →
    step (s.withFetchWord nbits w) = exec i { s.withFetchWord nbits w with turns := s.turns }

/-! ### Encodings -/

/-- For every well-formed operation, with its `wdata` at every value its encoding admits, decoding what it encodes to
gives it back (30_encoding.md R97 to R101). -/
def Obligations.DecodeOfEncodeIsIdentity : Prop :=
  ∀ i : Instr, i.wellFormed = true → decode (encode i) = some i

/-- No bit of a `T` word is dropped: what decodes is well formed and encodes to the very word. -/
def Obligations.TransactionWordIsRecovered : Prop :=
  ∀ (t : TWord) (i : Instr), decodeT t = .ok i → i.wellFormed = true ∧ encode i = .t t

/-- 30_encoding.md R99: a `T` word satisfies a row's match and mask exactly when it decodes to that row's operation;
every `T` word selects exactly one row, or none and then it is one of those R103 lists. -/
def Obligations.TransactionRowsByMask : Prop :=
  ∀ t : TWord,
    (∀ r ∈ hostRows, (t &&& r.2.2 = r.2.1 ↔ ∃ i, decodeT t = .ok i ∧ mnemonic i = r.1)) ∧
    (hostRows.filter fun r => decide (t &&& r.2.2 = r.2.1)).length =
      if (tWe t = true ∧ tAddr t ∈ [0x04#8, 0x10#8, 0x14#8, 0x18#8]) ∨
        tAddr t ∉ [0x00#8, 0x04#8, 0x08#8, 0x0C#8, 0x10#8, 0x14#8, 0x18#8] then 0 else 1

/-- 30_encoding.md R101: the same of `S` words. -/
def Obligations.SelectorRowsByMask : Prop :=
  ∀ (w : SWord) (r : String × SWord × SWord), r ∈ sequencerRows →
    (w &&& r.2.2 = r.2.1 ↔ ∃ i, decodeS w = .ok i ∧ mnemonic i = r.1)

/-- Words the spec prints (95_test_vectors.md section 7, 30_encoding.md R101) decode to the operations it prints them
for. -/
def Obligations.PrintedWordsDecode : Prop :=
  decodeTableWord 48 0x1080000000C = some (.wrGridH 12) ∧
  decodeTableWord 48 0x10C0000000A = some (.wrGridW 10) ∧
  decodeTableWord 48 0x10000000001 = some (.start 1) ∧
  decodeTableWord 48 0x10000000002 = some (.clear 2) ∧
  decodeTableWord 48 0x00400000000 = some (.rdStatus 0) ∧
  decodeTableWord 48 0x01800000000 = some (.rdBitCount 0) ∧
  decodeTableWord 8 0x0C = some .emitHdr ∧
  decodeTableWord 8 0x0F = none

/-! ### Host operations -/

/-- 41_host_operations.md R144, with R146 and R147: a `CTRL` write with bit 0 set is `START`, whatever bit 1 is; outside
`BUSY` it performs `operation_init()` and enters `BUSY`, `STATUS` becomes `0x001`, and on a grid with no row or no
column the next operation is `FINISH`; in `BUSY` it changes nothing. From reset, `START` and one sequencer step end in
`DONE` with `STATUS` `0x106`. -/
def Obligations.StartBeginsOperation : Prop :=
  ∀ (wdata : Word) (s : State),
    (wdata.getLsbD 0 = true → decodeT (tWord true 0x00 wdata) = .ok (.start wdata)) ∧
    (s.phase = .busy → exec (.start wdata) s = .next s) ∧
    (s.phase ≠ .busy → ∃ t, exec (.start wdata) s = .next t ∧
      t = { s with
        phase := .busy, bY := 0, bX := 0, k := 1, fph := .hdr, hdrCnt := 0, len := 0, rem := 0, shreg := 0, nb := 0,
        bitCount := 0, outCnt := 0, outLen := 0, errCode := .none, underrun := false } ∧
      statusWord t = 0x001 ∧ (∀ a, payRead t a = payRead s a) ∧
      (s.gridH = 0 ∨ s.gridW = 0 → decodeS (selector t) = .ok .finish)) ∧
    (wdata.getLsbD 0 = true → ∃ t u,
      step { State.reset with turns := [.host (tWord true 0x00 wdata), .sequencer] } = .next t ∧
      t.phase = .busy ∧ t.bY = 0 ∧ t.bX = 0 ∧ t.k = 1 ∧
      step t = .next u ∧ u.phase = .done ∧ statusWord u = 0x106)

/-- 41_host_operations.md R145, with R146: a `CTRL` write with bits 1:0 = `10` is `CLEAR`; outside `BUSY` it performs
`operation_init()` and enters `IDLE`, `STATUS` becomes `0x000`, and in `IDLE` it changes nothing; in `BUSY` it changes
nothing. -/
def Obligations.ClearReturnsToIdle : Prop :=
  ∀ (wdata : Word) (s : State),
    (wdata.getLsbD 0 = false → wdata.getLsbD 1 = true → decodeT (tWord true 0x00 wdata) = .ok (.clear wdata)) ∧
    (s.phase = .busy → exec (.clear wdata) s = .next s) ∧
    (s.phase ≠ .busy → ∃ t, exec (.clear wdata) s = .next t ∧
      t = { s with
        phase := .idle, bY := 0, bX := 0, k := 1, fph := .hdr, hdrCnt := 0, len := 0, rem := 0, shreg := 0, nb := 0,
        bitCount := 0, outCnt := 0, outLen := 0, errCode := .none, underrun := false } ∧
      statusWord t = 0x000 ∧ ∀ a, payRead t a = payRead s a) ∧
    (CoreInv s → s.phase = .idle → exec (.clear wdata) s = .next s)

/-- 41_host_operations.md R158: `CTRL_NOP` changes nothing in any phase. -/
def Obligations.ControlNopChangesNothing : Prop :=
  ∀ (wdata : Word) (s : State),
    (wdata.getLsbD 0 = false → wdata.getLsbD 1 = false → decodeT (tWord true 0x00 wdata) = .ok (.ctrlNop wdata)) ∧
    exec (.ctrlNop wdata) s = .next s

/-- 41_host_operations.md R141, R142: outside `BUSY` a write to `GRID_H` or `GRID_W` stores `wdata[15:0]` there and
changes nothing else; in `BUSY` it is dropped. -/
def Obligations.DimensionWritesStoreLowHalf : Prop :=
  ∀ (wdata : Word) (s : State),
    decodeT (tWord true 0x08 wdata) = .ok (.wrGridH wdata) ∧
    decodeT (tWord true 0x0C wdata) = .ok (.wrGridW wdata) ∧
    exec (.wrGridH wdata) s =
      .next (if s.phase = .busy then s else { s with gridH := BitVec.ofNat 16 (wdata.toNat % 65536) }) ∧
    exec (.wrGridW wdata) s =
      .next (if s.phase = .busy then s else { s with gridW := BitVec.ofNat 16 (wdata.toNat % 65536) })

/-- 41_host_operations.md R151, R153 to R157: what each read but `RD_STATUS` answers, in every phase; it changes no
register and no memory. -/
def Obligations.ReadsAnswerTheirRegister : Prop :=
  ∀ (wdata : Word) (s : State),
    decodeT (tWord false 0x00 wdata) = .ok (.rdCtrl wdata) ∧
    decodeT (tWord false 0x08 wdata) = .ok (.rdGridH wdata) ∧
    decodeT (tWord false 0x0C wdata) = .ok (.rdGridW wdata) ∧
    decodeT (tWord false 0x10 wdata) = .ok (.rdLen wdata) ∧
    decodeT (tWord false 0x14 wdata) = .ok (.rdOutLen wdata) ∧
    decodeT (tWord false 0x18 wdata) = .ok (.rdBitCount wdata) ∧
    exec (.rdCtrl wdata) s = .next { s with reads := s.reads ++ [0] } ∧
    exec (.rdGridH wdata) s = .next { s with reads := s.reads ++ [BitVec.ofNat 32 s.gridH.toNat] } ∧
    exec (.rdGridW wdata) s = .next { s with reads := s.reads ++ [BitVec.ofNat 32 s.gridW.toNat] } ∧
    exec (.rdLen wdata) s = .next { s with reads := s.reads ++ [s.len] } ∧
    exec (.rdOutLen wdata) s = .next { s with reads := s.reads ++ [s.outLen] } ∧
    exec (.rdBitCount wdata) s = .next { s with reads := s.reads ++ [s.bitCount] }

/-- 41_host_operations.md R152: `RD_STATUS` answers `ERRCODE ‖ 000 ‖ HDR_OK ‖ UNDERRUN ‖ ERR ‖ DONE ‖ BUSY`, each
flag as 10_state.md R39 defines it, and changes no register and no memory. -/
def Obligations.StatusReadAssemblesFlags : Prop :=
  ∀ (wdata : Word) (s : State),
    decodeT (tWord false 0x04 wdata) = .ok (.rdStatus wdata) ∧
    exec (.rdStatus wdata) s = .next { s with reads := s.reads ++ [BitVec.ofNat 32 (
      256 * (match s.errCode with
        | .none => 0
        | .insufficientHeader => 1
        | .truncatedPayload => 2) +
      (if s.hdrCnt.toNat = 32 then 16 else 0) + (if s.underrun then 8 else 0) +
      (if s.errCode = .none then 0 else 4) + (if s.phase = .done then 2 else 0) +
      (if s.phase = .busy then 1 else 0))] }

/-- 41_host_operations.md R149, R150: a write to a read-only or to no register is ignored in every phase, a read of no
register answers 0, and no state changes. -/
def Obligations.ReservedTransactionsHaveNoEffect : Prop :=
  ∀ (s : State) (addr : BitVec 8) (wdata : Word) (rest : List Turn),
    (addr ∉ [0x00#8, 0x08#8, 0x0C#8] → s.turns = .host (tWord true addr wdata) :: rest →
      step s = .next { s with turns := rest }) ∧
    (addr ∉ [0x00#8, 0x04#8, 0x08#8, 0x0C#8, 0x10#8, 0x14#8, 0x18#8] →
      s.turns = .host (tWord false addr wdata) :: rest →
      step s = .next { s with turns := rest, reads := s.reads ++ [0] })

/-- 41_host_operations.md R148 and 70_reset_and_hazards.md R256: while `BUSY` no write transaction, whatever its
address and data, changes anything. -/
def Obligations.BusyLosesEveryWrite : Prop :=
  ∀ (s : State) (t : TWord) (rest : List Turn), s.turns = .host t :: rest → tWe t = true → s.phase = .busy →
    step s = .next { s with turns := rest }

/-- 10_state.md R38 and 41_host_operations.md R140: every read transaction, whatever its address, answers what the
register map says and changes no register and no memory. -/
def Obligations.ReadTransactionsFollowRegisterMap : Prop :=
  ∀ (s : State) (t : TWord) (rest : List Turn), s.turns = .host t :: rest → tWe t = false →
    step s = .next { s with turns := rest, reads := s.reads ++ [registerMap s (tAddr t)] }

/-! ### Sequencer operations -/

/-- 42_scanner.md R166 and 43_filter_extractor.md R182: `VISIT_ABSENT` and `VISIT_SKIP` perform `advance()` and
nothing else. `VISIT_ABSENT` reads no coefficient, and is selected only when a dimension is not a multiple of 8 and
then only in a block of the last band; `VISIT_SKIP` is selected only for -1, 0 and 1. -/
def Obligations.SkippedPositionsOnlyAdvance : Prop :=
  (∀ w : SWord, w.getLsbD 4 = false → w.getLsbD 3 = false → decodeS w = .ok .visitAbsent) ∧
  (∀ w : SWord, w.getLsbD 4 = false → w.getLsbD 3 = true → w.getLsbD 2 = false → decodeS w = .ok .visitSkip) ∧
  ∀ s : State,
    exec .visitAbsent s = .next (scanAdvanced s) ∧ exec .visitSkip s = .next (scanAdvanced s) ∧
    (decodeS (selector s) = .ok .visitAbsent → coefAccess s = none) ∧
    (CoreInv s → s.phase = .busy → decodeS (selector s) = .ok .visitAbsent →
      (s.gridH.toNat % 8 ≠ 0 ∨ s.gridW.toNat % 8 ≠ 0) ∧
      (s.gridH.toNat < s.bY.toNat + 8 ∨ s.gridW.toNat < s.bX.toNat + 8)) ∧
    (decodeS (selector s) = .ok .visitSkip → valueAt s = -1 ∨ valueAt s = 0 ∨ valueAt s = 1)

/-- 44_framer.md R191 and 43_filter_extractor.md R183: `EMIT_HDR` counts the bit, shifts it into `LEN`, counts it in
`HDRCNT`, and as the 32nd loads `REM` with `8 * LEN` exactly and leaves `HDR`, to `DRAIN` for a length of 0; then it
advances. Nothing else changes. `STATUS.HDR_OK` reads 1 from that 32nd bit on. -/
def Obligations.EmitHeaderShiftsLength : Prop :=
  decodeS 0b01100 = .ok .emitHdr ∧
  ∀ (s : State) (newLen : BitVec 32), newLen = BitVec.ofNat 32 (2 * s.len.toNat + (valueAt s).natAbs % 2) →
    exec .emitHdr s = .next (scanAdvanced (
      if s.hdrCnt.toNat = 31 then
        { s with
          bitCount := s.bitCount + 1, len := newLen, hdrCnt := 32, rem := BitVec.ofNat 35 (8 * newLen.toNat),
          fph := if newLen = 0 then .drain else .pay }
      else { s with bitCount := s.bitCount + 1, len := newLen, hdrCnt := s.hdrCnt + 1 })) ∧
    ∀ t, exec .emitHdr s = .next t → ((statusWord t).getLsbD 4 = true ↔ s.hdrCnt.toNat = 31)

/-- 44_framer.md R193 and 43_filter_extractor.md R183: `EMIT_PAY` counts the bit, shifts it into `SHREG`, and on the
eighth bit of a byte stores the byte at `PAY` address `OUTCNT` and starts the next; at `REM` 0 it enters `DRAIN`; then
it advances. Every other register and every other byte of `PAY` is unchanged. -/
def Obligations.EmitPayloadAssemblesByte : Prop :=
  decodeS 0b01101 = .ok .emitPay ∧
  ∀ (s : State) (sh : Byte), sh = BitVec.ofNat 8 (2 * s.shreg.toNat + (valueAt s).natAbs % 2) →
    ∃ t, exec .emitPay s = .next t ∧
      { t with pay := s.pay } = scanAdvanced (
        if s.nb = 7 then
          { s with
            bitCount := s.bitCount + 1, rem := s.rem - 1, outCnt := s.outCnt + 1, shreg := 0, nb := 0,
            fph := if s.rem = 1 then .drain else s.fph }
        else
          { s with
            bitCount := s.bitCount + 1, rem := s.rem - 1, shreg := sh, nb := s.nb + 1,
            fph := if s.rem = 1 then .drain else s.fph }) ∧
      (s.nb = 7 → payRead t s.outCnt.toNat = some sh ∧
        ∀ a, a ≠ s.outCnt.toNat → payRead t a = payRead s a) ∧
      (s.nb ≠ 7 → ∀ a, payRead t a = payRead s a)

/-- 44_framer.md R195: `EMIT_DRAIN` counts the bit and advances, and nothing else changes. -/
def Obligations.EmitDrainCountsBit : Prop :=
  decodeS 0b01110 = .ok .emitDrain ∧
  ∀ s : State, exec .emitDrain s = .next (scanAdvanced { s with bitCount := s.bitCount + 1 })

/-- 44_framer.md R199, with the outcomes of R200 to R203: `FINISH` takes the first outcome whose test holds, and every
outcome enters `DONE`. The padded byte goes to `PAY` address `OUTCNT`; no other byte changes, and no byte at all in the
other outcomes. It reads no coefficient. -/
def Obligations.FinishTakesFirstOutcome : Prop :=
  (∀ w : SWord, w.getLsbD 4 = true → decodeS w = .ok .finish) ∧
  ∀ s : State,
    (decodeS (selector s) = .ok .finish → coefAccess s = none) ∧
    (s.hdrCnt.toNat < 32 →
      exec .finish s = .next { s with errCode := .insufficientHeader, outLen := 0, phase := .done }) ∧
    (32 ≤ s.hdrCnt.toNat → s.rem = 0 → exec .finish s = .next { s with outLen := s.outCnt, phase := .done }) ∧
    (32 ≤ s.hdrCnt.toNat → s.rem ≠ 0 → s.policy = .pad → s.nb = 0 →
      exec .finish s = .next { s with underrun := true, outLen := s.outCnt, phase := .done }) ∧
    (32 ≤ s.hdrCnt.toNat → s.rem ≠ 0 → s.policy = .pad → s.nb ≠ 0 →
      ∃ t, exec .finish s = .next t ∧
        { t with pay := s.pay } = { s with
          underrun := true, outLen := s.outCnt + 1, outCnt := s.outCnt + 1, shreg := 0, nb := 0, phase := .done } ∧
        payRead t s.outCnt.toNat = some (BitVec.ofNat 8 (s.shreg.toNat * 2 ^ (8 - s.nb.toNat))) ∧
        ∀ a, a ≠ s.outCnt.toNat → payRead t a = payRead s a) ∧
    (32 ≤ s.hdrCnt.toNat → s.rem ≠ 0 → s.policy = .strict →
      exec .finish s = .next { s with
        underrun := true, errCode := .truncatedPayload, outLen := 0, phase := .done })

/-- What each operation may do to the memories (20_memory.md R64, which the spec marks as derived): none changes
`COEF`; `PAY` changes only at address `OUTCNT`, and only in `EMIT_PAY` on the eighth bit of a byte and in `FINISH` with
a partial byte under `PAD`. -/
def Obligations.OperationsReachTheirSpaces : Prop :=
  ∀ (i : Instr) (s t : State), exec i s = .next t →
    (∀ a, coefRead t a = coefRead s a) ∧
    (∀ a, a ≠ s.outCnt.toNat → payRead t a = payRead s a) ∧
    (¬ (i = .emitPay ∧ s.nb = 7) →
      ¬ (i = .finish ∧ 32 ≤ s.hdrCnt.toNat ∧ s.rem ≠ 0 ∧ s.policy = .pad ∧ s.nb ≠ 0) →
      ∀ a, payRead t a = payRead s a)

/-- 20_memory.md R62 (the spec marks it as derived) and 42_scanner.md R166: a sequencer step reads `COEF` only at an
address `row ‖ col` with `row < GRID_H` and `col < GRID_W`. -/
def Obligations.CoefficientReadsStayInGrid : Prop :=
  ∀ (s : State) (a : BitVec 32), coefAccess s = some a →
    ∃ row col, row < s.gridH.toNat ∧ col < s.gridW.toNat ∧ a.toNat = 65536 * row + col

/-! ### Rules of the whole machine -/

/-- 60_exceptions.md R221 and 00_scope.md R14: nothing faults, nothing is refused; every state whatever has a next
state. -/
def Obligations.EveryStateHasNextState : Prop :=
  ∀ s : State, ∃ t, step s = .next t

/-- 10_state.md R23: the transitions of `PHASE`. `BUSY` is entered by `START` alone; it is left by `FINISH`, to `DONE`,
or by hardware reset; `DONE` is left to `IDLE` by `CLEAR` or hardware reset. -/
def Obligations.PhaseTransitionsOnlyByCommands : Prop :=
  ∀ s t : State, step s = .next t → nextTurn s ≠ .hardReset → t.phase ≠ s.phase →
    (s.phase ≠ .busy ∧ t.phase = .busy ∧ ∃ u wdata, nextTurn s = .host u ∧ decodeT u = .ok (.start wdata)) ∨
    (s.phase = .busy ∧ t.phase = .done ∧ nextTurn s = .sequencer ∧ decodeS (selector s) = .ok .finish) ∨
    (s.phase = .done ∧ t.phase = .idle ∧ ∃ u wdata, nextTurn s = .host u ∧ decodeT u = .ok (.clear wdata))

/-- 44_framer.md R204: `FINISH` ends in `DONE`, where `STATUS.DONE` reads 1 and the sequencer's turn does nothing; from
then on, until the next `START` or `CLEAR` (or hardware reset), no
turn changes the phase, the result registers or `STATUS`. -/
def Obligations.ResultsStayUntilNextCommand : Prop :=
  (∀ s : State, ∃ t, exec .finish s = .next t ∧ t.phase = .done ∧ (statusWord t).getLsbD 1 = true ∧
    (nextTurn t = .sequencer → step t = .next { t with turns := t.turns.tail })) ∧
  ∀ s t : State, s.phase = .done → step s = .next t → Commands (nextTurn s) = false → nextTurn s ≠ .hardReset →
    t.phase = .done ∧ t.len = s.len ∧ t.outLen = s.outLen ∧ t.bitCount = s.bitCount ∧ t.errCode = s.errCode ∧
    t.underrun = s.underrun ∧ statusWord t = statusWord s ∧ ∀ a, payRead t a = payRead s a

/-- 00_scope.md R9: the policy cannot change between or during operations; 20_memory.md R60: only the platform's turn
changes `COEF`. The policy as a field and the platform's turn are the model's choices (logs 1, 7). -/
def Obligations.PolicyAndGridNotWrittenByCore : Prop :=
  ∀ s t : State, step s = .next t →
    t.policy = s.policy ∧ ((∀ row col w, nextTurn s ≠ .coefWrite row col w) → t.coef = s.coef)

/-- 42_scanner.md R171 and 43_filter_extractor.md R186 (the spec marks both as derived): coefficients, the framer and
the results never influence the scan. Two states that agree on phase, position, dimensions and turns still agree after
a step of each and read the same `COEF` address, whatever else differs. -/
def Obligations.CoefficientsNeverSteerScan : Prop :=
  ∀ s s' t t' : State, ScanAgree s s' → step s = .next t → step s' = .next t' →
    ScanAgree t t' ∧ stepAccess s = stepAccess s'

/-- 10_state.md R44 (the spec marks it as derived) holds at reset. -/
def Obligations.InvariantHoldsAtReset : Prop :=
  CoreInv State.reset

/-- 10_state.md R44 (the spec marks it as derived): the invariants are kept by every step, of every agent, from every
state that has them. -/
def Obligations.InvariantKeptByEveryStep : Prop :=
  ∀ s t : State, CoreInv s → step s = .next t → CoreInv t

/-- 44_framer.md R194, R198 and R202. `OUTCNT <= LEN` in every phase. With a complete header, in every phase and under
either policy, `OUTCNT = LEN` exactly when `REM < 8` and no partial byte is held; where `FINISH` has flushed it, in
`DONE` under `PAD`, exactly when `REM < 8`, as R198 writes it. Before `FINISH` the payload is complete exactly when
`REM = 0`, and a padded end gives `OUT_LEN = LEN` exactly when `REM <= 7`. (R198's "exactly when `REM < 8`", which the
spec marks as derived, leaves `NB` out, and so fails where a partial byte is held: log 15.) -/
def Obligations.BytesWrittenNeverExceedLength : Prop :=
  ∀ s : State, CoreInv s → s.outCnt.toNat ≤ s.len.toNat ∧
    (s.hdrCnt.toNat = 32 → (s.outCnt = s.len ↔ s.rem.toNat < 8 ∧ s.nb = 0)) ∧
    (s.hdrCnt.toNat = 32 → s.phase = .done → s.policy = .pad → (s.outCnt = s.len ↔ s.rem.toNat < 8)) ∧
    (s.phase ≠ .done → s.hdrCnt.toNat = 32 → (s.outCnt = s.len ∧ s.nb = 0 ↔ s.rem = 0)) ∧
    (s.phase ≠ .done → s.policy = .pad → s.hdrCnt.toNat = 32 → s.rem ≠ 0 →
      ∃ t, exec .finish s = .next t ∧ (t.outLen = t.len ↔ s.rem.toNat ≤ 7))

/-- 44_framer.md R206 and 10_state.md R39 (the spec marks both as derived): what `STATUS` and `OUT_LEN` read in `DONE`,
by the number of bits, the bits still missing, and the policy; and what `STATUS` reads in `IDLE` and `BUSY`. -/
def Obligations.StatusTellsTheOutcome : Prop :=
  ∀ s : State, CoreInv s →
    (s.phase = .idle → statusWord s = 0x000) ∧
    (s.phase = .busy → statusWord s = if s.bitCount.toNat < 32 then 0x001 else 0x011) ∧
    (s.phase = .done → s.bitCount.toNat < 32 → statusWord s = 0x106 ∧ s.outLen = 0) ∧
    (s.phase = .done → 32 ≤ s.bitCount.toNat → s.rem = 0 → statusWord s = 0x012 ∧ s.outLen = s.len) ∧
    (s.phase = .done → 32 ≤ s.bitCount.toNat → s.rem ≠ 0 → s.policy = .pad →
      statusWord s = 0x01A ∧ s.outLen.toNat = (s.bitCount.toNat - 32 + 7) / 8) ∧
    (s.phase = .done → 32 ≤ s.bitCount.toNat → s.rem ≠ 0 → s.policy = .strict →
      statusWord s = 0x21E ∧ s.outLen = 0)

/-! ### The filter and the scan order -/

/-- 43_filter_extractor.md R184, R185 (the spec marks the first as derived): on 16-bit words `usable` fails exactly for
-1, 0 and 1, and `bit` is the low bit of the word, the most negative word included. -/
def Obligations.UsableAndBitReduceToBitTests : Prop :=
  ∀ w : CoefWord,
    (usable (signedValue w) = true ↔ w ≠ 0x0000#16 ∧ w ≠ 0x0001#16 ∧ w ≠ 0xFFFF#16) ∧
    bitOf (signedValue w) = w.getLsbD 0

/-- 10_state.md R40, R41: the table is a permutation of the 64 positions, starts at the DC position and then to the
right, is what the procedure of R41 generates, and has the inverse that R40 prints. -/
def Obligations.ZigzagIsTheClassicalOrder : Prop :=
  (List.range 64).map zigzag = zigzagGenerated ∧
  zigzag 0 = (0, 0) ∧ zigzag 1 = (0, 1) ∧ zigzag 2 = (1, 0) ∧
  ((List.range 64).map zigzag).Nodup ∧ (∀ k < 64, (zigzag k).1 < 8 ∧ (zigzag k).2 < 8) ∧
  (List.range 64).map (fun p => zigzagTable.idxOf p) =
    [0, 1, 5, 6, 14, 15, 27, 28] ++ [2, 4, 7, 13, 16, 26, 29, 42] ++ [3, 8, 12, 17, 25, 30, 41, 43] ++
    [9, 11, 18, 24, 31, 40, 44, 53] ++ [10, 19, 23, 32, 39, 45, 52, 54] ++ [20, 22, 33, 38, 46, 51, 55, 60] ++
    [21, 34, 37, 47, 50, 56, 59, 61] ++ [35, 36, 48, 49, 57, 58, 62, 63]

/-! ### The pure functions -/

/-- 40_reference_functions.md R130 item 2, 42_scanner.md R163: the coefficients at the DC positions never matter, nor
those outside the grid. -/
def Obligations.ExtractIgnoresDcCoefficients : Prop :=
  ∀ (height width : Nat) (g g' : Nat → Nat → Int),
    (∀ row col, row < height → col < width → ¬ (8 ∣ row ∧ 8 ∣ col) → g row col = g' row col) →
    extract height width g = extract height width g'

/-- 40_reference_functions.md R124 (the spec marks it as derived): the number of bits extracted is at most the number of
non-DC scan positions of the blocks, and at most the number of non-DC positions of the grid. -/
def Obligations.ExtractLengthBounded : Prop :=
  ∀ (height width : Nat) (g : Nat → Nat → Int),
    (extract height width g).length ≤ 63 * ceil8 height * ceil8 width ∧
    (extract height width g).length + ceil8 height * ceil8 width ≤ height * width

/-- 40_reference_functions.md R127: with a header, and with as many payload bits as it declares, `decode` gives exactly
the declared number of bytes; with fewer, under `PAD`, it gives `ceil(avail / 8)` bytes, which is the declared number
exactly when at most 7 bits are missing, is less otherwise, and is 0 when no payload bit was there. -/
def Obligations.DecodedLengthByPolicy : Prop :=
  ∀ (policy : Config.UnderrunPolicy) (s : List Bool) (length avail : Nat),
    32 ≤ s.length → length = declaredLength s → avail = s.length - 32 →
    (8 * length ≤ avail → ∃ bytes, decodeFrame policy s = .ok bytes false ∧ bytes.length = length) ∧
    (avail < 8 * length → policy = .pad →
      ∃ bytes, decodeFrame policy s = .ok bytes true ∧ bytes.length = (avail + 7) / 8 ∧
        (8 * length - avail ≤ 7 → bytes.length = length) ∧ (7 < 8 * length - avail → bytes.length < length) ∧
        (avail = 0 → bytes = []))

/-- 40_reference_functions.md R130 item 5: decoding a framed payload gives it back, under either policy. -/
def Obligations.FramedPayloadDecodesToItself : Prop :=
  ∀ (policy : Config.UnderrunPolicy) (bytes : List Nat), (∀ b ∈ bytes, b < 256) → bytes.length < 2 ^ 32 →
    decodeFrame policy (bitsOf 32 bytes.length ++ bytes.flatMap (bitsOf 8)) = .ok bytes false

/-- 40_reference_functions.md R131 (the spec marks it as derived): bits after a complete payload never matter. -/
def Obligations.TrailingBitsNeverMatter : Prop :=
  ∀ (policy : Config.UnderrunPolicy) (s trailer : List Bool) (bytes : List Nat),
    decodeFrame policy s = .ok bytes false → decodeFrame policy (s ++ trailer) = .ok bytes false

/-! ### The whole operation -/

/-- 40_reference_functions.md R129 (the spec marks it as derived): from any state that is not `BUSY`, `START` followed
by any interleaving of host transactions with exactly `63 * ceil(H/8) * ceil(W/8) + 1` sequencer steps, the last turn
a sequencer step, ends in `DONE` with `BIT_COUNT`, `ERRCODE`, `UNDERRUN`, `OUT_LEN`, `STATUS`, `LEN` and the bytes of
`PAY` that `decode(extract(H, W, g))` says, for the grid that `COEF` holds and either policy. Turns are the
model's form of interleaving (log 4), as in the two statements after this one. -/
def Obligations.OperationComputesDecodeOfExtract : Prop :=
  ∀ (s : State) (wdata : Word) (ts rest : List Turn) (bits : List Bool),
    s.phase ≠ .busy → wdata.getLsbD 0 = true →
    s.turns = .host (tWord true 0x00 wdata) :: (ts ++ rest) →
    (∀ u ∈ ts, Quiet u) → ts.getLast? = some .sequencer →
    ts.count .sequencer = visitCount s.gridH.toNat s.gridW.toNat + 1 →
    bits = extract s.gridH.toNat s.gridW.toNat (gridOf s) →
    ∃ t, Host.Core.run Sys2Proof.core (1 + ts.length) s = .next t ∧ t.turns = rest ∧ t.phase = .done ∧
      t.bitCount.toNat = bits.length ∧ t.coef = s.coef ∧ t.gridH = s.gridH ∧ t.gridW = s.gridW ∧
      match decodeFrame s.policy bits with
      | .err .insufficientHeader =>
        t.errCode = .insufficientHeader ∧ t.underrun = false ∧ t.outLen = 0 ∧ statusWord t = 0x106 ∧
          t.len.toNat = bitsValue bits ∧ PayKeptFrom 0 s t
      | .err .truncatedPayload =>
        t.errCode = .truncatedPayload ∧ t.underrun = true ∧ t.outLen = 0 ∧ statusWord t = 0x21E ∧
          t.len.toNat = declaredLength bits ∧
          PayHolds (pack (bits.drop 32)) ((bits.length - 32) / 8) t ∧ PayKeptFrom ((bits.length - 32) / 8) s t
      | .ok bytes underrun =>
        t.errCode = .none ∧ t.underrun = underrun ∧ t.outLen.toNat = bytes.length ∧
          statusWord t = (if underrun then 0x01A else 0x012) ∧ t.len.toNat = declaredLength bits ∧
          PayHolds bytes bytes.length t ∧ PayKeptFrom bytes.length s t

/-- 42_scanner.md R170 (the spec marks it as derived): after `START` the operation is still running after any number of
sequencer steps up to `63 * ceil(H/8) * ceil(W/8)`, whatever the host does between them, and the next sequencer step is
`FINISH` exactly when there have been that many. -/
def Obligations.OperationLengthIsExact : Prop :=
  ∀ (s : State) (wdata : Word) (ts rest : List Turn),
    s.phase ≠ .busy → wdata.getLsbD 0 = true →
    s.turns = .host (tWord true 0x00 wdata) :: (ts ++ rest) →
    (∀ u ∈ ts, Quiet u) → ts.count .sequencer ≤ visitCount s.gridH.toNat s.gridW.toNat →
    ∃ t, Host.Core.run Sys2Proof.core (1 + ts.length) s = .next t ∧ t.turns = rest ∧ t.phase = .busy ∧
      (decodeS (selector t) = .ok .finish ↔
        ts.count .sequencer = visitCount s.gridH.toNat s.gridW.toNat)

/-- 42_scanner.md R172 (the spec marks it as derived): the `COEF` addresses an operation reads, in order, are those of
the present non-DC positions, block by block in row-major order and in zigzag order within each. They depend on the
dimensions alone. -/
def Obligations.CoefficientReadSequence : Prop :=
  ∀ (s : State) (wdata : Word) (ts rest : List Turn),
    s.phase ≠ .busy → wdata.getLsbD 0 = true →
    s.turns = .host (tWord true 0x00 wdata) :: (ts ++ rest) →
    (∀ u ∈ ts, Quiet u) → ts.count .sequencer = visitCount s.gridH.toNat s.gridW.toNat →
    accessTrace (1 + ts.length) s =
      (scanPositions s.gridH.toNat s.gridW.toNat).map fun p => coefAddress p.1 p.2
end

