-- ==== Sys2Proof/Laws/State.lean ====
section
/-! SUPPORT. One lemma per field per update of the state, each true by unfolding, so that no later proof unfolds an
update. -/

namespace Sys2Proof.Machine

variable (s : State)

/-! ### `popTurn`: The turn leaves the list. -/

@[simp] theorem popTurn_gridH : (popTurn s).gridH = s.gridH := rfl
@[simp] theorem popTurn_gridW : (popTurn s).gridW = s.gridW := rfl
@[simp] theorem popTurn_phase : (popTurn s).phase = s.phase := rfl
@[simp] theorem popTurn_bY : (popTurn s).bY = s.bY := rfl
@[simp] theorem popTurn_bX : (popTurn s).bX = s.bX := rfl
@[simp] theorem popTurn_k : (popTurn s).k = s.k := rfl
@[simp] theorem popTurn_fph : (popTurn s).fph = s.fph := rfl
@[simp] theorem popTurn_hdrCnt : (popTurn s).hdrCnt = s.hdrCnt := rfl
@[simp] theorem popTurn_len : (popTurn s).len = s.len := rfl
@[simp] theorem popTurn_rem : (popTurn s).rem = s.rem := rfl
@[simp] theorem popTurn_shreg : (popTurn s).shreg = s.shreg := rfl
@[simp] theorem popTurn_nb : (popTurn s).nb = s.nb := rfl
@[simp] theorem popTurn_bitCount : (popTurn s).bitCount = s.bitCount := rfl
@[simp] theorem popTurn_outCnt : (popTurn s).outCnt = s.outCnt := rfl
@[simp] theorem popTurn_outLen : (popTurn s).outLen = s.outLen := rfl
@[simp] theorem popTurn_errCode : (popTurn s).errCode = s.errCode := rfl
@[simp] theorem popTurn_underrun : (popTurn s).underrun = s.underrun := rfl
@[simp] theorem popTurn_coef : (popTurn s).coef = s.coef := rfl
@[simp] theorem popTurn_pay : (popTurn s).pay = s.pay := rfl
@[simp] theorem popTurn_policy : (popTurn s).policy = s.policy := rfl
@[simp] theorem popTurn_turns : (popTurn s).turns = s.turns.tail := rfl
@[simp] theorem popTurn_reads : (popTurn s).reads = s.reads := rfl

/-! ### `respond`: A read answers. -/

@[simp] theorem respond_gridH (r : Word) : (respond r s).gridH = s.gridH := rfl
@[simp] theorem respond_gridW (r : Word) : (respond r s).gridW = s.gridW := rfl
@[simp] theorem respond_phase (r : Word) : (respond r s).phase = s.phase := rfl
@[simp] theorem respond_bY (r : Word) : (respond r s).bY = s.bY := rfl
@[simp] theorem respond_bX (r : Word) : (respond r s).bX = s.bX := rfl
@[simp] theorem respond_k (r : Word) : (respond r s).k = s.k := rfl
@[simp] theorem respond_fph (r : Word) : (respond r s).fph = s.fph := rfl
@[simp] theorem respond_hdrCnt (r : Word) : (respond r s).hdrCnt = s.hdrCnt := rfl
@[simp] theorem respond_len (r : Word) : (respond r s).len = s.len := rfl
@[simp] theorem respond_rem (r : Word) : (respond r s).rem = s.rem := rfl
@[simp] theorem respond_shreg (r : Word) : (respond r s).shreg = s.shreg := rfl
@[simp] theorem respond_nb (r : Word) : (respond r s).nb = s.nb := rfl
@[simp] theorem respond_bitCount (r : Word) : (respond r s).bitCount = s.bitCount := rfl
@[simp] theorem respond_outCnt (r : Word) : (respond r s).outCnt = s.outCnt := rfl
@[simp] theorem respond_outLen (r : Word) : (respond r s).outLen = s.outLen := rfl
@[simp] theorem respond_errCode (r : Word) : (respond r s).errCode = s.errCode := rfl
@[simp] theorem respond_underrun (r : Word) : (respond r s).underrun = s.underrun := rfl
@[simp] theorem respond_coef (r : Word) : (respond r s).coef = s.coef := rfl
@[simp] theorem respond_pay (r : Word) : (respond r s).pay = s.pay := rfl
@[simp] theorem respond_policy (r : Word) : (respond r s).policy = s.policy := rfl
@[simp] theorem respond_turns (r : Word) : (respond r s).turns = s.turns := rfl
@[simp] theorem respond_reads (r : Word) : (respond r s).reads = s.reads ++ [r] := rfl

/-! ### `placeCoefficient`: The platform places a word. -/

@[simp] theorem placeCoefficient_gridH (row col : BitVec 16) (w : CoefWord) :
    (placeCoefficient row col w s).gridH = s.gridH := rfl
@[simp] theorem placeCoefficient_gridW (row col : BitVec 16) (w : CoefWord) :
    (placeCoefficient row col w s).gridW = s.gridW := rfl
@[simp] theorem placeCoefficient_phase (row col : BitVec 16) (w : CoefWord) :
    (placeCoefficient row col w s).phase = s.phase := rfl
@[simp] theorem placeCoefficient_bY (row col : BitVec 16) (w : CoefWord) :
    (placeCoefficient row col w s).bY = s.bY := rfl
@[simp] theorem placeCoefficient_bX (row col : BitVec 16) (w : CoefWord) :
    (placeCoefficient row col w s).bX = s.bX := rfl
@[simp] theorem placeCoefficient_k (row col : BitVec 16) (w : CoefWord) :
    (placeCoefficient row col w s).k = s.k := rfl
@[simp] theorem placeCoefficient_fph (row col : BitVec 16) (w : CoefWord) :
    (placeCoefficient row col w s).fph = s.fph := rfl
@[simp] theorem placeCoefficient_hdrCnt (row col : BitVec 16) (w : CoefWord) :
    (placeCoefficient row col w s).hdrCnt = s.hdrCnt := rfl
@[simp] theorem placeCoefficient_len (row col : BitVec 16) (w : CoefWord) :
    (placeCoefficient row col w s).len = s.len := rfl
@[simp] theorem placeCoefficient_rem (row col : BitVec 16) (w : CoefWord) :
    (placeCoefficient row col w s).rem = s.rem := rfl
@[simp] theorem placeCoefficient_shreg (row col : BitVec 16) (w : CoefWord) :
    (placeCoefficient row col w s).shreg = s.shreg := rfl
@[simp] theorem placeCoefficient_nb (row col : BitVec 16) (w : CoefWord) :
    (placeCoefficient row col w s).nb = s.nb := rfl
@[simp] theorem placeCoefficient_bitCount (row col : BitVec 16) (w : CoefWord) :
    (placeCoefficient row col w s).bitCount = s.bitCount := rfl
@[simp] theorem placeCoefficient_outCnt (row col : BitVec 16) (w : CoefWord) :
    (placeCoefficient row col w s).outCnt = s.outCnt := rfl
@[simp] theorem placeCoefficient_outLen (row col : BitVec 16) (w : CoefWord) :
    (placeCoefficient row col w s).outLen = s.outLen := rfl
@[simp] theorem placeCoefficient_errCode (row col : BitVec 16) (w : CoefWord) :
    (placeCoefficient row col w s).errCode = s.errCode := rfl
@[simp] theorem placeCoefficient_underrun (row col : BitVec 16) (w : CoefWord) :
    (placeCoefficient row col w s).underrun = s.underrun := rfl
@[simp] theorem placeCoefficient_coef (row col : BitVec 16) (w : CoefWord) :
    (placeCoefficient row col w s).coef = writeCell s.coef (row ++ col).toNat w := rfl
@[simp] theorem placeCoefficient_pay (row col : BitVec 16) (w : CoefWord) :
    (placeCoefficient row col w s).pay = s.pay := rfl
@[simp] theorem placeCoefficient_policy (row col : BitVec 16) (w : CoefWord) :
    (placeCoefficient row col w s).policy = s.policy := rfl
@[simp] theorem placeCoefficient_turns (row col : BitVec 16) (w : CoefWord) :
    (placeCoefficient row col w s).turns = s.turns := rfl
@[simp] theorem placeCoefficient_reads (row col : BitVec 16) (w : CoefWord) :
    (placeCoefficient row col w s).reads = s.reads := rfl

/-! ### `operationInit`: `operation_init()` (41_host_operations.md R146). -/

@[simp] theorem operationInit_gridH : (operationInit s).gridH = s.gridH := rfl
@[simp] theorem operationInit_gridW : (operationInit s).gridW = s.gridW := rfl
@[simp] theorem operationInit_phase : (operationInit s).phase = s.phase := rfl
@[simp] theorem operationInit_bY : (operationInit s).bY = 0 := rfl
@[simp] theorem operationInit_bX : (operationInit s).bX = 0 := rfl
@[simp] theorem operationInit_k : (operationInit s).k = 1 := rfl
@[simp] theorem operationInit_fph : (operationInit s).fph = .hdr := rfl
@[simp] theorem operationInit_hdrCnt : (operationInit s).hdrCnt = 0 := rfl
@[simp] theorem operationInit_len : (operationInit s).len = 0 := rfl
@[simp] theorem operationInit_rem : (operationInit s).rem = 0 := rfl
@[simp] theorem operationInit_shreg : (operationInit s).shreg = 0 := rfl
@[simp] theorem operationInit_nb : (operationInit s).nb = 0 := rfl
@[simp] theorem operationInit_bitCount : (operationInit s).bitCount = 0 := rfl
@[simp] theorem operationInit_outCnt : (operationInit s).outCnt = 0 := rfl
@[simp] theorem operationInit_outLen : (operationInit s).outLen = 0 := rfl
@[simp] theorem operationInit_errCode : (operationInit s).errCode = .none := rfl
@[simp] theorem operationInit_underrun : (operationInit s).underrun = false := rfl
@[simp] theorem operationInit_coef : (operationInit s).coef = s.coef := rfl
@[simp] theorem operationInit_pay : (operationInit s).pay = s.pay := rfl
@[simp] theorem operationInit_policy : (operationInit s).policy = s.policy := rfl
@[simp] theorem operationInit_turns : (operationInit s).turns = s.turns := rfl
@[simp] theorem operationInit_reads : (operationInit s).reads = s.reads := rfl

/-! ### `hardwareReset`: Hardware reset (70_reset_and_hazards.md R250). -/

@[simp] theorem hardwareReset_gridH : (hardwareReset s).gridH = 0 := rfl
@[simp] theorem hardwareReset_gridW : (hardwareReset s).gridW = 0 := rfl
@[simp] theorem hardwareReset_phase : (hardwareReset s).phase = .idle := rfl
@[simp] theorem hardwareReset_bY : (hardwareReset s).bY = 0 := rfl
@[simp] theorem hardwareReset_bX : (hardwareReset s).bX = 0 := rfl
@[simp] theorem hardwareReset_k : (hardwareReset s).k = 1 := rfl
@[simp] theorem hardwareReset_fph : (hardwareReset s).fph = .hdr := rfl
@[simp] theorem hardwareReset_hdrCnt : (hardwareReset s).hdrCnt = 0 := rfl
@[simp] theorem hardwareReset_len : (hardwareReset s).len = 0 := rfl
@[simp] theorem hardwareReset_rem : (hardwareReset s).rem = 0 := rfl
@[simp] theorem hardwareReset_shreg : (hardwareReset s).shreg = 0 := rfl
@[simp] theorem hardwareReset_nb : (hardwareReset s).nb = 0 := rfl
@[simp] theorem hardwareReset_bitCount : (hardwareReset s).bitCount = 0 := rfl
@[simp] theorem hardwareReset_outCnt : (hardwareReset s).outCnt = 0 := rfl
@[simp] theorem hardwareReset_outLen : (hardwareReset s).outLen = 0 := rfl
@[simp] theorem hardwareReset_errCode : (hardwareReset s).errCode = .none := rfl
@[simp] theorem hardwareReset_underrun : (hardwareReset s).underrun = false := rfl
@[simp] theorem hardwareReset_coef : (hardwareReset s).coef = s.coef := rfl
@[simp] theorem hardwareReset_pay : (hardwareReset s).pay = s.pay := rfl
@[simp] theorem hardwareReset_policy : (hardwareReset s).policy = s.policy := rfl
@[simp] theorem hardwareReset_turns : (hardwareReset s).turns = s.turns := rfl
@[simp] theorem hardwareReset_reads : (hardwareReset s).reads = s.reads := rfl

/-! ### `advance`: `advance()` (42_scanner.md R168). -/

@[simp] theorem advance_gridH : (advance s).gridH = s.gridH := rfl
@[simp] theorem advance_gridW : (advance s).gridW = s.gridW := rfl
@[simp] theorem advance_phase : (advance s).phase = s.phase := rfl
@[simp] theorem advance_bY : (advance s).bY = nextBY s := rfl
@[simp] theorem advance_bX : (advance s).bX = nextBX s := rfl
@[simp] theorem advance_k : (advance s).k = nextK s := rfl
@[simp] theorem advance_fph : (advance s).fph = s.fph := rfl
@[simp] theorem advance_hdrCnt : (advance s).hdrCnt = s.hdrCnt := rfl
@[simp] theorem advance_len : (advance s).len = s.len := rfl
@[simp] theorem advance_rem : (advance s).rem = s.rem := rfl
@[simp] theorem advance_shreg : (advance s).shreg = s.shreg := rfl
@[simp] theorem advance_nb : (advance s).nb = s.nb := rfl
@[simp] theorem advance_bitCount : (advance s).bitCount = s.bitCount := rfl
@[simp] theorem advance_outCnt : (advance s).outCnt = s.outCnt := rfl
@[simp] theorem advance_outLen : (advance s).outLen = s.outLen := rfl
@[simp] theorem advance_errCode : (advance s).errCode = s.errCode := rfl
@[simp] theorem advance_underrun : (advance s).underrun = s.underrun := rfl
@[simp] theorem advance_coef : (advance s).coef = s.coef := rfl
@[simp] theorem advance_pay : (advance s).pay = s.pay := rfl
@[simp] theorem advance_policy : (advance s).policy = s.policy := rfl
@[simp] theorem advance_turns : (advance s).turns = s.turns := rfl
@[simp] theorem advance_reads : (advance s).reads = s.reads := rfl

/-! ### `countBit`: One more bit (43_filter_extractor.md R183). -/

@[simp] theorem countBit_gridH : (countBit s).gridH = s.gridH := rfl
@[simp] theorem countBit_gridW : (countBit s).gridW = s.gridW := rfl
@[simp] theorem countBit_phase : (countBit s).phase = s.phase := rfl
@[simp] theorem countBit_bY : (countBit s).bY = s.bY := rfl
@[simp] theorem countBit_bX : (countBit s).bX = s.bX := rfl
@[simp] theorem countBit_k : (countBit s).k = s.k := rfl
@[simp] theorem countBit_fph : (countBit s).fph = s.fph := rfl
@[simp] theorem countBit_hdrCnt : (countBit s).hdrCnt = s.hdrCnt := rfl
@[simp] theorem countBit_len : (countBit s).len = s.len := rfl
@[simp] theorem countBit_rem : (countBit s).rem = s.rem := rfl
@[simp] theorem countBit_shreg : (countBit s).shreg = s.shreg := rfl
@[simp] theorem countBit_nb : (countBit s).nb = s.nb := rfl
@[simp] theorem countBit_bitCount : (countBit s).bitCount = s.bitCount + 1 := rfl
@[simp] theorem countBit_outCnt : (countBit s).outCnt = s.outCnt := rfl
@[simp] theorem countBit_outLen : (countBit s).outLen = s.outLen := rfl
@[simp] theorem countBit_errCode : (countBit s).errCode = s.errCode := rfl
@[simp] theorem countBit_underrun : (countBit s).underrun = s.underrun := rfl
@[simp] theorem countBit_coef : (countBit s).coef = s.coef := rfl
@[simp] theorem countBit_pay : (countBit s).pay = s.pay := rfl
@[simp] theorem countBit_policy : (countBit s).policy = s.policy := rfl
@[simp] theorem countBit_turns : (countBit s).turns = s.turns := rfl
@[simp] theorem countBit_reads : (countBit s).reads = s.reads := rfl

/-! ### `raiseFraming`: Taking an error (60_exceptions.md R227). -/

@[simp] theorem raiseFraming_gridH (e : ErrCode) : (raiseFraming e s).gridH = s.gridH := rfl
@[simp] theorem raiseFraming_gridW (e : ErrCode) : (raiseFraming e s).gridW = s.gridW := rfl
@[simp] theorem raiseFraming_phase (e : ErrCode) : (raiseFraming e s).phase = .done := rfl
@[simp] theorem raiseFraming_bY (e : ErrCode) : (raiseFraming e s).bY = s.bY := rfl
@[simp] theorem raiseFraming_bX (e : ErrCode) : (raiseFraming e s).bX = s.bX := rfl
@[simp] theorem raiseFraming_k (e : ErrCode) : (raiseFraming e s).k = s.k := rfl
@[simp] theorem raiseFraming_fph (e : ErrCode) : (raiseFraming e s).fph = s.fph := rfl
@[simp] theorem raiseFraming_hdrCnt (e : ErrCode) : (raiseFraming e s).hdrCnt = s.hdrCnt := rfl
@[simp] theorem raiseFraming_len (e : ErrCode) : (raiseFraming e s).len = s.len := rfl
@[simp] theorem raiseFraming_rem (e : ErrCode) : (raiseFraming e s).rem = s.rem := rfl
@[simp] theorem raiseFraming_shreg (e : ErrCode) : (raiseFraming e s).shreg = s.shreg := rfl
@[simp] theorem raiseFraming_nb (e : ErrCode) : (raiseFraming e s).nb = s.nb := rfl
@[simp] theorem raiseFraming_bitCount (e : ErrCode) : (raiseFraming e s).bitCount = s.bitCount := rfl
@[simp] theorem raiseFraming_outCnt (e : ErrCode) : (raiseFraming e s).outCnt = s.outCnt := rfl
@[simp] theorem raiseFraming_outLen (e : ErrCode) : (raiseFraming e s).outLen = 0 := rfl
@[simp] theorem raiseFraming_errCode (e : ErrCode) : (raiseFraming e s).errCode = e := rfl
@[simp] theorem raiseFraming_underrun (e : ErrCode) :
    (raiseFraming e s).underrun = if e = .truncatedPayload then true else s.underrun := rfl
@[simp] theorem raiseFraming_coef (e : ErrCode) : (raiseFraming e s).coef = s.coef := rfl
@[simp] theorem raiseFraming_pay (e : ErrCode) : (raiseFraming e s).pay = s.pay := rfl
@[simp] theorem raiseFraming_policy (e : ErrCode) : (raiseFraming e s).policy = s.policy := rfl
@[simp] theorem raiseFraming_turns (e : ErrCode) : (raiseFraming e s).turns = s.turns := rfl
@[simp] theorem raiseFraming_reads (e : ErrCode) : (raiseFraming e s).reads = s.reads := rfl

/-! ### `headerBit`: The body of `EMIT_HDR` (44_framer.md R191). -/

@[simp] theorem headerBit_gridH (b : Bool) : (headerBit b s).gridH = s.gridH := rfl
@[simp] theorem headerBit_gridW (b : Bool) : (headerBit b s).gridW = s.gridW := rfl
@[simp] theorem headerBit_phase (b : Bool) : (headerBit b s).phase = s.phase := rfl
@[simp] theorem headerBit_bY (b : Bool) : (headerBit b s).bY = s.bY := rfl
@[simp] theorem headerBit_bX (b : Bool) : (headerBit b s).bX = s.bX := rfl
@[simp] theorem headerBit_k (b : Bool) : (headerBit b s).k = s.k := rfl
@[simp] theorem headerBit_fph (b : Bool) :
    (headerBit b s).fph = if completesHeader s then (if pushedLen b s = 0 then .drain else .pay) else s.fph := rfl
@[simp] theorem headerBit_hdrCnt (b : Bool) : (headerBit b s).hdrCnt = s.hdrCnt + 1 := rfl
@[simp] theorem headerBit_len (b : Bool) : (headerBit b s).len = pushedLen b s := rfl
@[simp] theorem headerBit_rem (b : Bool) :
    (headerBit b s).rem = if completesHeader s then (pushedLen b s).zeroExtend 35 <<< 3 else s.rem := rfl
@[simp] theorem headerBit_shreg (b : Bool) : (headerBit b s).shreg = s.shreg := rfl
@[simp] theorem headerBit_nb (b : Bool) : (headerBit b s).nb = s.nb := rfl
@[simp] theorem headerBit_bitCount (b : Bool) : (headerBit b s).bitCount = s.bitCount := rfl
@[simp] theorem headerBit_outCnt (b : Bool) : (headerBit b s).outCnt = s.outCnt := rfl
@[simp] theorem headerBit_outLen (b : Bool) : (headerBit b s).outLen = s.outLen := rfl
@[simp] theorem headerBit_errCode (b : Bool) : (headerBit b s).errCode = s.errCode := rfl
@[simp] theorem headerBit_underrun (b : Bool) : (headerBit b s).underrun = s.underrun := rfl
@[simp] theorem headerBit_coef (b : Bool) : (headerBit b s).coef = s.coef := rfl
@[simp] theorem headerBit_pay (b : Bool) : (headerBit b s).pay = s.pay := rfl
@[simp] theorem headerBit_policy (b : Bool) : (headerBit b s).policy = s.policy := rfl
@[simp] theorem headerBit_turns (b : Bool) : (headerBit b s).turns = s.turns := rfl
@[simp] theorem headerBit_reads (b : Bool) : (headerBit b s).reads = s.reads := rfl

/-! ### `payloadBit`: The body of `EMIT_PAY` (44_framer.md R193). -/

@[simp] theorem payloadBit_gridH (b : Bool) : (payloadBit b s).gridH = s.gridH := rfl
@[simp] theorem payloadBit_gridW (b : Bool) : (payloadBit b s).gridW = s.gridW := rfl
@[simp] theorem payloadBit_phase (b : Bool) : (payloadBit b s).phase = s.phase := rfl
@[simp] theorem payloadBit_bY (b : Bool) : (payloadBit b s).bY = s.bY := rfl
@[simp] theorem payloadBit_bX (b : Bool) : (payloadBit b s).bX = s.bX := rfl
@[simp] theorem payloadBit_k (b : Bool) : (payloadBit b s).k = s.k := rfl
@[simp] theorem payloadBit_fph (b : Bool) : (payloadBit b s).fph = if s.rem - 1 = 0 then .drain else s.fph := rfl
@[simp] theorem payloadBit_hdrCnt (b : Bool) : (payloadBit b s).hdrCnt = s.hdrCnt := rfl
@[simp] theorem payloadBit_len (b : Bool) : (payloadBit b s).len = s.len := rfl
@[simp] theorem payloadBit_rem (b : Bool) : (payloadBit b s).rem = s.rem - 1 := rfl
@[simp] theorem payloadBit_shreg (b : Bool) :
    (payloadBit b s).shreg = if completesByte s then 0 else pushedByte b s := rfl
@[simp] theorem payloadBit_nb (b : Bool) : (payloadBit b s).nb = if completesByte s then 0 else s.nb + 1 := rfl
@[simp] theorem payloadBit_bitCount (b : Bool) : (payloadBit b s).bitCount = s.bitCount := rfl
@[simp] theorem payloadBit_outCnt (b : Bool) :
    (payloadBit b s).outCnt = if completesByte s then s.outCnt + 1 else s.outCnt := rfl
@[simp] theorem payloadBit_outLen (b : Bool) : (payloadBit b s).outLen = s.outLen := rfl
@[simp] theorem payloadBit_errCode (b : Bool) : (payloadBit b s).errCode = s.errCode := rfl
@[simp] theorem payloadBit_underrun (b : Bool) : (payloadBit b s).underrun = s.underrun := rfl
@[simp] theorem payloadBit_coef (b : Bool) : (payloadBit b s).coef = s.coef := rfl
@[simp] theorem payloadBit_pay (b : Bool) :
    (payloadBit b s).pay = if completesByte s then payWrite s s.outCnt (pushedByte b s) else s.pay := rfl
@[simp] theorem payloadBit_policy (b : Bool) : (payloadBit b s).policy = s.policy := rfl
@[simp] theorem payloadBit_turns (b : Bool) : (payloadBit b s).turns = s.turns := rfl
@[simp] theorem payloadBit_reads (b : Bool) : (payloadBit b s).reads = s.reads := rfl

/-! ### `finishComplete`: Outcome `Complete` (44_framer.md R201). -/

@[simp] theorem finishComplete_gridH : (finishComplete s).gridH = s.gridH := rfl
@[simp] theorem finishComplete_gridW : (finishComplete s).gridW = s.gridW := rfl
@[simp] theorem finishComplete_phase : (finishComplete s).phase = .done := rfl
@[simp] theorem finishComplete_bY : (finishComplete s).bY = s.bY := rfl
@[simp] theorem finishComplete_bX : (finishComplete s).bX = s.bX := rfl
@[simp] theorem finishComplete_k : (finishComplete s).k = s.k := rfl
@[simp] theorem finishComplete_fph : (finishComplete s).fph = s.fph := rfl
@[simp] theorem finishComplete_hdrCnt : (finishComplete s).hdrCnt = s.hdrCnt := rfl
@[simp] theorem finishComplete_len : (finishComplete s).len = s.len := rfl
@[simp] theorem finishComplete_rem : (finishComplete s).rem = s.rem := rfl
@[simp] theorem finishComplete_shreg : (finishComplete s).shreg = s.shreg := rfl
@[simp] theorem finishComplete_nb : (finishComplete s).nb = s.nb := rfl
@[simp] theorem finishComplete_bitCount : (finishComplete s).bitCount = s.bitCount := rfl
@[simp] theorem finishComplete_outCnt : (finishComplete s).outCnt = s.outCnt := rfl
@[simp] theorem finishComplete_outLen : (finishComplete s).outLen = s.outCnt := rfl
@[simp] theorem finishComplete_errCode : (finishComplete s).errCode = s.errCode := rfl
@[simp] theorem finishComplete_underrun : (finishComplete s).underrun = s.underrun := rfl
@[simp] theorem finishComplete_coef : (finishComplete s).coef = s.coef := rfl
@[simp] theorem finishComplete_pay : (finishComplete s).pay = s.pay := rfl
@[simp] theorem finishComplete_policy : (finishComplete s).policy = s.policy := rfl
@[simp] theorem finishComplete_turns : (finishComplete s).turns = s.turns := rfl
@[simp] theorem finishComplete_reads : (finishComplete s).reads = s.reads := rfl

/-! ### `finishPad`: Outcome `PadUnderrun` (44_framer.md R202). -/

@[simp] theorem finishPad_gridH : (finishPad s).gridH = s.gridH := rfl
@[simp] theorem finishPad_gridW : (finishPad s).gridW = s.gridW := rfl
@[simp] theorem finishPad_phase : (finishPad s).phase = .done := rfl
@[simp] theorem finishPad_bY : (finishPad s).bY = s.bY := rfl
@[simp] theorem finishPad_bX : (finishPad s).bX = s.bX := rfl
@[simp] theorem finishPad_k : (finishPad s).k = s.k := rfl
@[simp] theorem finishPad_fph : (finishPad s).fph = s.fph := rfl
@[simp] theorem finishPad_hdrCnt : (finishPad s).hdrCnt = s.hdrCnt := rfl
@[simp] theorem finishPad_len : (finishPad s).len = s.len := rfl
@[simp] theorem finishPad_rem : (finishPad s).rem = s.rem := rfl
@[simp] theorem finishPad_shreg : (finishPad s).shreg = if partialByte s then 0 else s.shreg := rfl
@[simp] theorem finishPad_nb : (finishPad s).nb = if partialByte s then 0 else s.nb := rfl
@[simp] theorem finishPad_bitCount : (finishPad s).bitCount = s.bitCount := rfl
@[simp] theorem finishPad_outCnt : (finishPad s).outCnt = if partialByte s then s.outCnt + 1 else s.outCnt := rfl
@[simp] theorem finishPad_outLen : (finishPad s).outLen = if partialByte s then s.outCnt + 1 else s.outCnt := rfl
@[simp] theorem finishPad_errCode : (finishPad s).errCode = s.errCode := rfl
@[simp] theorem finishPad_underrun : (finishPad s).underrun = true := rfl
@[simp] theorem finishPad_coef : (finishPad s).coef = s.coef := rfl
@[simp] theorem finishPad_pay :
    (finishPad s).pay = if partialByte s then payWrite s s.outCnt (paddedByte s) else s.pay := rfl
@[simp] theorem finishPad_policy : (finishPad s).policy = s.policy := rfl
@[simp] theorem finishPad_turns : (finishPad s).turns = s.turns := rfl
@[simp] theorem finishPad_reads : (finishPad s).reads = s.reads := rfl

end Sys2Proof.Machine
end

