-- ==== Sys2Proof/Laws/Memory.lean ====
section
/-! SUPPORT. The laws of the memory operations: read after write, and that every one keeps the canonical form. -/

namespace Sys2Proof.Machine

variable {α : Type}

@[simp] theorem readCell_writeCell_same (m : List (Nat × α)) (a : Nat) (v : α) :
    readCell (writeCell m a v) a = some v := by
  induction m with
  | nil => simp [writeCell, readCell]
  | cons c rest ih =>
    obtain ⟨b, w⟩ := c
    by_cases hlt : a < b
    · simp [writeCell, readCell, hlt]
    · by_cases heq : a = b
      · simp [writeCell, readCell, heq]
      · simp [writeCell, readCell, hlt, heq, ih]

@[simp] theorem readCell_writeCell_other (m : List (Nat × α)) {a b : Nat} (v : α) (h : b ≠ a) :
    readCell (writeCell m a v) b = readCell m b := by
  induction m with
  | nil => simp [writeCell, readCell, h]
  | cons c rest ih =>
    obtain ⟨d, w⟩ := c
    by_cases hlt : a < d
    · simp [writeCell, readCell, hlt, h]
    · by_cases heq : a = d
      · subst heq; simp [writeCell, readCell, h]
      · by_cases hb : b = d
        · simp [writeCell, readCell, hlt, heq, hb]
        · simp [writeCell, readCell, hlt, heq, hb, ih]

theorem risingAbove_writeCell (m : List (Nat × α)) {a : Nat} (lo : Nat) (v : α) (hlo : lo < a)
    (h : risingAbove lo m = true) : risingAbove lo (writeCell m a v) = true := by
  induction m generalizing lo with
  | nil => simp [writeCell, risingAbove, hlo]
  | cons c rest ih =>
    obtain ⟨b, w⟩ := c
    simp only [risingAbove, Bool.and_eq_true, decide_eq_true_eq] at h
    by_cases hlt : a < b
    · simp [writeCell, risingAbove, hlt, hlo, h.2]
    · by_cases heq : a = b
      · subst heq; simp [writeCell, risingAbove, hlo, h.2]
      · have hba : b < a := by omega
        simp [writeCell, risingAbove, hlt, heq, h.1, ih b hba h.2]

theorem wf_of_risingAbove (m : List (Nat × α)) (lo : Nat) (h : risingAbove lo m = true) :
    Memory.wf m = true := by
  cases m with
  | nil => rfl
  | cons c rest => simp only [risingAbove, Bool.and_eq_true] at h; exact h.2

/-- A write keeps the canonical form. -/
theorem wf_writeCell (m : List (Nat × α)) (a : Nat) (v : α) (h : Memory.wf m = true) :
    Memory.wf (writeCell m a v) = true := by
  cases m with
  | nil => rfl
  | cons c rest =>
    obtain ⟨b, w⟩ := c
    by_cases hlt : a < b
    · simpa [writeCell, Memory.wf, hlt, risingAbove] using h
    · by_cases heq : a = b
      · subst heq; simpa [writeCell, Memory.wf] using h
      · have hba : b < a := by omega
        simpa [writeCell, Memory.wf, hlt, heq] using risingAbove_writeCell rest b v hba h

theorem risingAbove_readCell_none (m : List (Nat × α)) (lo a : Nat) (h : risingAbove lo m = true) (ha : a ≤ lo) :
    readCell m a = none := by
  induction m generalizing lo with
  | nil => rfl
  | cons c rest ih =>
    obtain ⟨b, w⟩ := c
    simp only [risingAbove, Bool.and_eq_true, decide_eq_true_eq] at h
    have hne : a ≠ b := by omega
    simp [readCell, hne, ih b h.2 (by omega)]

/-- Two rising memories that read alike have the same first cell, and their rests read alike. -/
theorem head_ext {b b' : Nat} {w w' : α} {rest rest' : List (Nat × α)} (hm : risingAbove b rest = true)
    (hn : risingAbove b' rest' = true) (h : ∀ a, readCell ((b, w) :: rest) a = readCell ((b', w') :: rest') a) :
    b = b' ∧ w = w' ∧ ∀ a, readCell rest a = readCell rest' a := by
  have hb : b = b' := by
    by_contra hne
    rcases Nat.lt_or_gt_of_ne hne with hlt | hgt
    · simpa [readCell, hne, risingAbove_readCell_none rest' b' b hn (by omega)] using h b
    · simpa [readCell, Ne.symm hne, risingAbove_readCell_none rest b b' hm (by omega)] using h b'
  subst hb
  refine ⟨rfl, by simpa [readCell] using h b, fun a => ?_⟩
  by_cases ha : a = b
  · subst ha
    rw [risingAbove_readCell_none rest _ _ hm (Nat.le_refl _), risingAbove_readCell_none rest' _ _ hn (Nat.le_refl _)]
  · simpa [readCell, ha] using h a

theorem risingAbove_ext (m n : List (Nat × α)) (lo lo' : Nat) (hm : risingAbove lo m = true)
    (hn : risingAbove lo' n = true) (h : ∀ a, readCell m a = readCell n a) : m = n := by
  induction m generalizing n lo lo' with
  | nil =>
    cases n with
    | nil => rfl
    | cons c rest => simpa [readCell] using h c.1
  | cons c rest ih =>
    cases n with
    | nil => simpa [readCell] using h c.1
    | cons c' rest' =>
      obtain ⟨b, w⟩ := c
      obtain ⟨b', w'⟩ := c'
      simp only [risingAbove, Bool.and_eq_true] at hm hn
      obtain ⟨rfl, rfl, hrest⟩ := head_ext hm.2 hn.2 h
      rw [ih rest' b b hm.2 hn.2 hrest]

/-- The form is canonical: two memories in it that read alike are the same list. -/
theorem wf_ext (m n : List (Nat × α)) (hm : Memory.wf m = true) (hn : Memory.wf n = true)
    (h : ∀ a, readCell m a = readCell n a) : m = n := by
  cases m with
  | nil =>
    cases n with
    | nil => rfl
    | cons c rest => simpa [readCell] using h c.1
  | cons c rest =>
    cases n with
    | nil => simpa [readCell] using h c.1
    | cons c' rest' =>
      obtain ⟨b, w⟩ := c
      obtain ⟨b', w'⟩ := c'
      obtain ⟨rfl, rfl, hrest⟩ := head_ext hm hn h
      rw [risingAbove_ext rest rest' b b hm hn hrest]

/-! ### The operations of the machine -/

theorem wf_payWrite (s : State) (a : BitVec 32) (b : Byte) (h : Memory.wf s.pay = true) :
    Memory.wf (payWrite s a b) = true :=
  wf_writeCell s.pay a.toNat b h

theorem wf_placeCoefficient (s : State) (row col : BitVec 16) (w : CoefWord) (h : Memory.wf s.coef = true) :
    Memory.wf (placeCoefficient row col w s).coef = true :=
  wf_writeCell s.coef _ w h

theorem wf_payloadBit (s : State) (b : Bool) (h : Memory.wf s.pay = true) :
    Memory.wf (payloadBit b s).pay = true := by
  rw [payloadBit_pay]
  split
  · exact wf_payWrite s _ _ h
  · exact h

theorem wf_finishPad (s : State) (h : Memory.wf s.pay = true) : Memory.wf (finishPad s).pay = true := by
  rw [finishPad_pay]
  split
  · exact wf_payWrite s _ _ h
  · exact h

theorem wf_reset_pay : Memory.wf State.reset.pay = true := rfl

theorem wf_reset_coef : Memory.wf State.reset.coef = true := rfl

end Sys2Proof.Machine
end

