-- ==== Sys2Proof/Laws/PerInstr.lean ====
section
/-! SUPPORT. RowMatch: the word an operation encodes to lies in its own row of the opcode table, by that row's match
and mask columns (30_encoding.md R99, R101). -/

namespace Sys2Proof.Laws

/-- The bits of a `T` word by position. -/
theorem tWord_getLsbD (we : Bool) (addr : BitVec 8) (wdata : Word) (i : Nat) :
    (tWord we addr wdata).getLsbD i =
      if i < 32 then wdata.getLsbD i else if i < 40 then addr.getLsbD (i - 32) else (decide (i = 40) && we) := by
  unfold tWord
  rw [BitVec.getLsbD_append]
  by_cases h : i < 32
  · simp [h]
  · simp only [h, if_false, BitVec.getLsbD_append]
    by_cases h' : i < 40
    · simp [h', show i - 32 < 8 by omega]
    · simp only [h', show ¬ i - 32 < 8 by omega, if_false]
      by_cases h'' : i = 40
      · simp [h'']
      · simp [h'', show i - 32 - 8 ≠ 0 by omega]

/-- Masking a `T` word masks its three fields. -/
theorem tWord_and (we we' : Bool) (addr addr' : BitVec 8) (wdata wdata' : Word) :
    tWord we addr wdata &&& tWord we' addr' wdata' = tWord (we && we') (addr &&& addr') (wdata &&& wdata') := by
  apply BitVec.eq_of_getLsbD_eq
  intro i _
  simp only [BitVec.getLsbD_and, tWord_getLsbD]
  split
  · rfl
  · split
    · rfl
    · cases we <;> cases we' <;> simp

/-- A row whose mask covers `we` and `addr` and the bits `low` of `wdata`. -/
theorem tWord_row (we : Bool) (addr : BitVec 8) (wdata low value : Word) (h : wdata &&& low = value) :
    tWord we addr wdata &&& tWord true 0xFF low = tWord we addr value := by
  rw [tWord_and, h, Bool.and_true, show addr &&& 0xFF = addr from BitVec.and_allOnes]

/-- The two command bits of `CTRL` write data, masked. -/
theorem and_three (w v : Word) (h0 : w.getLsbD 0 = v.getLsbD 0) (h1 : w.getLsbD 1 = v.getLsbD 1)
    (hv : v &&& 3#32 = v) : w &&& 3#32 = v := by
  rw [← hv]
  apply BitVec.eq_of_getLsbD_eq
  intro i _
  match i with
  | 0 => rw [BitVec.getLsbD_and, BitVec.getLsbD_and, h0]
  | 1 => rw [BitVec.getLsbD_and, BitVec.getLsbD_and, h1]
  | i + 2 =>
    have h3 : Nat.testBit 3 (i + 2) = false :=
      Nat.testBit_lt_two_pow (by have := Nat.pow_le_pow_right (n := 2) (by omega) (show 2 ≤ i + 2 by omega); omega)
    simp [BitVec.getLsbD_ofNat, h3]

theorem and_one (w : Word) (h : w.getLsbD 0 = true) : w &&& 1#32 = 1#32 := by
  rw [BitVec.and_one_eq_setWidth_ofBool_getLsbD, h]; rfl

end Sys2Proof.Laws

namespace Sys2Proof.Laws.RowMatch

/-- A well-formed operation's word has the fixed bits of the row that bears its mnemonic. -/
def Statement (i : Instr) : Prop :=
  i.wellFormed = true →
    match encode i with
    | .t w => ∃ fixed mask, (mnemonic i, fixed, mask) ∈ hostRows ∧ w &&& mask = fixed
    | .s w => ∃ fixed mask, (mnemonic i, fixed, mask) ∈ sequencerRows ∧ w &&& mask = fixed

/-- Membership in the table, found by evaluating it. -/
theorem row (r : String × TWord × TWord) (h : hostRows.contains r = true) : r ∈ hostRows :=
  List.contains_iff_mem.mp h

theorem start (wdata : Word) : Statement (.start wdata) := fun h =>
  ⟨0x10000000001, 0x1FF00000001, row _ rfl, tWord_row true 0x00 wdata 1 1 (and_one wdata h)⟩

theorem clear (wdata : Word) : Statement (.clear wdata) := fun h => by
  simp only [Instr.wellFormed, Bool.and_eq_true, Bool.not_eq_true'] at h
  exact ⟨0x10000000002, 0x1FF00000003, row _ rfl, tWord_row true 0x00 wdata 3 2 (and_three wdata 2 h.1 h.2 rfl)⟩

theorem ctrlNop (wdata : Word) : Statement (.ctrlNop wdata) := fun h => by
  simp only [Instr.wellFormed, Bool.and_eq_true, Bool.not_eq_true'] at h
  exact ⟨0x10000000000, 0x1FF00000003, row _ rfl, tWord_row true 0x00 wdata 3 0 (and_three wdata 0 h.1 h.2 rfl)⟩

theorem wrGridH (wdata : Word) : Statement (.wrGridH wdata) := fun _ =>
  ⟨0x10800000000, 0x1FF00000000, row _ rfl, tWord_row true 0x08 wdata 0 0 BitVec.and_zero⟩

theorem wrGridW (wdata : Word) : Statement (.wrGridW wdata) := fun _ =>
  ⟨0x10C00000000, 0x1FF00000000, row _ rfl, tWord_row true 0x0C wdata 0 0 BitVec.and_zero⟩

theorem rdCtrl (wdata : Word) : Statement (.rdCtrl wdata) := fun _ =>
  ⟨0x00000000000, 0x1FF00000000, row _ rfl, tWord_row false 0x00 wdata 0 0 BitVec.and_zero⟩

theorem rdStatus (wdata : Word) : Statement (.rdStatus wdata) := fun _ =>
  ⟨0x00400000000, 0x1FF00000000, row _ rfl, tWord_row false 0x04 wdata 0 0 BitVec.and_zero⟩

theorem rdGridH (wdata : Word) : Statement (.rdGridH wdata) := fun _ =>
  ⟨0x00800000000, 0x1FF00000000, row _ rfl, tWord_row false 0x08 wdata 0 0 BitVec.and_zero⟩

theorem rdGridW (wdata : Word) : Statement (.rdGridW wdata) := fun _ =>
  ⟨0x00C00000000, 0x1FF00000000, row _ rfl, tWord_row false 0x0C wdata 0 0 BitVec.and_zero⟩

theorem rdLen (wdata : Word) : Statement (.rdLen wdata) := fun _ =>
  ⟨0x01000000000, 0x1FF00000000, row _ rfl, tWord_row false 0x10 wdata 0 0 BitVec.and_zero⟩

theorem rdOutLen (wdata : Word) : Statement (.rdOutLen wdata) := fun _ =>
  ⟨0x01400000000, 0x1FF00000000, row _ rfl, tWord_row false 0x14 wdata 0 0 BitVec.and_zero⟩

theorem rdBitCount (wdata : Word) : Statement (.rdBitCount wdata) := fun _ =>
  ⟨0x01800000000, 0x1FF00000000, row _ rfl, tWord_row false 0x18 wdata 0 0 BitVec.and_zero⟩

theorem finish : Statement .finish := fun _ => ⟨0x10, 0x10, by decide, by decide⟩

theorem visitAbsent : Statement .visitAbsent := fun _ => ⟨0x00, 0x18, by decide, by decide⟩

theorem visitSkip : Statement .visitSkip := fun _ => ⟨0x08, 0x1C, by decide, by decide⟩

theorem emitHdr : Statement .emitHdr := fun _ => ⟨0x0C, 0x1F, by decide, by decide⟩

theorem emitPay : Statement .emitPay := fun _ => ⟨0x0D, 0x1F, by decide, by decide⟩

theorem emitDrain : Statement .emitDrain := fun _ => ⟨0x0E, 0x1F, by decide, by decide⟩

end Sys2Proof.Laws.RowMatch
end

