-- ==== Sys2Proof/Laws/Step.lean ====
section
/-! SUPPORT. What each turn and each shared operation can do, said once. -/

namespace Sys2Proof.Machine

/-! ### Turns -/

theorem step_no_turn (s : State) (h : s.turns = []) : step s = sequencerTurn s := by
  simp [step, takeTurn, h]

theorem step_sequencer (s : State) (rest : List Turn) (h : s.turns = .sequencer :: rest) :
    step s = sequencerTurn (popTurn s) := by
  simp [step, takeTurn, h]

theorem step_host (s : State) (t : TWord) (rest : List Turn) (h : s.turns = .host t :: rest) :
    step s = hostTurn t (popTurn s) := by
  simp [step, takeTurn, h]

theorem step_coefWrite (s : State) (row col : BitVec 16) (w : CoefWord) (rest : List Turn)
    (h : s.turns = .coefWrite row col w :: rest) :
    step s = .next (placeCoefficient row col w (popTurn s)) := by
  simp [step, takeTurn, h]

theorem step_hardReset (s : State) (rest : List Turn) (h : s.turns = .hardReset :: rest) :
    step s = .next (hardwareReset (popTurn s)) := by
  simp [step, takeTurn, h]

/-- Everything a step can be: the four kinds of turn, or the sequencer's when no turn is left. -/
theorem step_cases (s : State) :
    (s.turns = [] ∧ step s = sequencerTurn s) ∨
    (∃ rest, s.turns = .sequencer :: rest ∧ step s = sequencerTurn (popTurn s)) ∨
    (∃ t rest, s.turns = .host t :: rest ∧ step s = hostTurn t (popTurn s)) ∨
    (∃ row col w rest, s.turns = .coefWrite row col w :: rest ∧
      step s = .next (placeCoefficient row col w (popTurn s))) ∨
    (∃ rest, s.turns = .hardReset :: rest ∧ step s = .next (hardwareReset (popTurn s))) := by
  match h : s.turns with
  | [] => exact .inl ⟨rfl, step_no_turn s h⟩
  | .sequencer :: rest => exact .inr (.inl ⟨rest, rfl, step_sequencer s rest h⟩)
  | .host t :: rest => exact .inr (.inr (.inl ⟨t, rest, rfl, step_host s t rest h⟩))
  | .coefWrite row col w :: rest =>
    exact .inr (.inr (.inr (.inl ⟨row, col, w, rest, rfl, step_coefWrite s row col w rest h⟩)))
  | .hardReset :: rest => exact .inr (.inr (.inr (.inr ⟨rest, rfl, step_hardReset s rest h⟩)))

theorem sequencerTurn_rest (s : State) (h : s.phase ≠ .busy) : sequencerTurn s = .next s := by
  cases hp : s.phase <;> simp_all [sequencerTurn]

theorem sequencerTurn_busy (s : State) (i : Instr) (h : s.phase = .busy) (hi : decodeS (selector s) = .ok i) :
    sequencerTurn s = exec i s := by
  simp [sequencerTurn, h, hi]

theorem hostTurn_ok (s : State) (t : TWord) (i : Instr) (h : decodeT t = .ok i) : hostTurn t s = exec i s := by
  simp [hostTurn, h]

theorem hostTurn_error (s : State) (t : TWord) (e : TReject) (h : decodeT t = .error e) :
    hostTurn t s = .next (reservedAccess e s) := by
  simp [hostTurn, h]

/-- The effect of a reserved transaction: nothing, or the answer 0. -/
theorem reservedAccess_cases (e : TReject) (s : State) : reservedAccess e s = s ∨ reservedAccess e s = respond 0 s := by
  cases e with
  | readOnlyWrite _ => exact .inl rfl
  | unmappedWrite _ => exact .inl rfl
  | unmappedRead _ => exact .inr rfl

/-! ### The step selector -/

theorem selector_exh (s : State) : (selector s).getLsbD 4 = exhausted s := by
  cases he : exhausted s <;> cases hp : present s <;> cases hf : s.fph <;>
    cases hu : usable (signedValue (scanWord s)) <;> simp [selector, he, hp, hf, hu, framerCode]

theorem selector_pres (s : State) (h : exhausted s = false) : (selector s).getLsbD 3 = present s := by
  cases hp : present s <;> cases hf : s.fph <;>
    cases hu : usable (signedValue (scanWord s)) <;> simp [selector, h, hp, hf, hu, framerCode]

theorem selector_use (s : State) (h : exhausted s = false) (hp : present s = true) :
    (selector s).getLsbD 2 = usable (signedValue (scanWord s)) := by
  cases hf : s.fph <;>
    cases hu : usable (signedValue (scanWord s)) <;> simp [selector, h, hp, hf, hu, framerCode]

theorem selector_fph (s : State) : (selector s).extractLsb' 0 2 = framerCode s.fph := by
  cases he : exhausted s <;> cases hp : present s <;> cases hf : s.fph <;>
    cases hu : usable (signedValue (scanWord s)) <;> simp [selector, he, hp, hf, hu, framerCode]

/-! ### Operations read the scan through the fields they need -/

@[simp] theorem scanWord_popTurn (s : State) : scanWord (popTurn s) = scanWord s := rfl

@[simp] theorem scanBit_popTurn (s : State) : scanBit (popTurn s) = scanBit s := rfl

@[simp] theorem exhausted_popTurn (s : State) : exhausted (popTurn s) = exhausted s := rfl

@[simp] theorem present_popTurn (s : State) : present (popTurn s) = present s := rfl

@[simp] theorem selector_popTurn (s : State) : selector (popTurn s) = selector s := rfl

@[simp] theorem payRead_payWrite_same (s : State) (t : State) (a : BitVec 32) (b : Byte) (h : t.pay = payWrite s a b) :
    payRead t a.toNat = some b := by
  simp [payRead, h, payWrite]

theorem payRead_payWrite_other (s t : State) (a : BitVec 32) (b : Byte) (x : Nat) (h : t.pay = payWrite s a b)
    (hx : x ≠ a.toNat) : payRead t x = payRead s x := by
  simp [payRead, h, payWrite, hx]

end Sys2Proof.Machine
end

