-- ==== Sys2Proof/Tests/Slice0.lean ====
section
/-! SUPPORT. Named tests: words written out from the spec's encodings, single steps with results from
95_test_vectors.md, the well-formedness checks, and a witness for every statement that has hypotheses. -/

namespace Sys2Proof.Tests

open Sys2Proof.Machine Sys2Proof.Safety

/-- A field of the next state, if there is one. -/
def got {β : Type} (o : Host.Outcome State Fault Refusal) (f : State → β) : Option β :=
  match o with
  | .next s => some (f s)
  | .fault _ => none
  | .refused _ => none

/-- An 8 by 8 operation at scan index `k`, with the coefficient `v` at scan index 1, position `(0, 1)`. -/
def running (k : BitVec 6) (v : CoefWord) : State :=
  { State.reset with gridH := 8, gridW := 8, phase := .busy, k := k, coef := [(1, v)] }

/-- `running` with the framer part-way through a payload of one byte, `n` bits of it received. -/
def inPayload (n : BitVec 3) (sh : Byte) (rem : BitVec 35) : State :=
  { running 1 3 with
    k := 50, fph := .pay, hdrCnt := 32, len := 1, rem := rem, nb := n, shreg := sh,
    bitCount := 32 + n.zeroExtend 32 }

/-- `s` with the sequencer or a host transaction next. -/
def turning (u : Turn) (s : State) : State := { s with turns := [u] }

/-! ### Well-formedness: each check refuses an ill-formed term -/

theorem test_wellFormed_start : (Instr.start 2).wellFormed = false := by decide
theorem test_wellFormed_clear_bit0 : (Instr.clear 3).wellFormed = false := by decide
theorem test_wellFormed_clear_bit1 : (Instr.clear 4).wellFormed = false := by decide
theorem test_wellFormed_ctrlNop_bit0 : (Instr.ctrlNop 1).wellFormed = false := by decide
theorem test_wellFormed_ctrlNop_bit1 : (Instr.ctrlNop 2).wellFormed = false := by decide
theorem test_wellFormed_good : (Instr.start 3).wellFormed = true ∧ (Instr.clear 2).wellFormed = true ∧
    (Instr.ctrlNop 0xFFFFFFFC).wellFormed = true := by decide

/-! ### Decoding: words written out bit by bit from 30_encoding.md R97, R99 and R101 -/

theorem test_decode_start :
    decodeT 0b1_00000000_00000000000000000000000000000001#41 = .ok (.start 1) := by decide
theorem test_decode_start_both_bits :
    decodeT 0b1_00000000_00000000000000000000000000000011#41 = .ok (.start 3) := by decide
theorem test_decode_clear :
    decodeT 0b1_00000000_00000000000000000000000000000010#41 = .ok (.clear 2) := by decide
theorem test_decode_ctrlNop :
    decodeT 0b1_00000000_11111111111111111111111111111100#41 = .ok (.ctrlNop 0xFFFFFFFC) := by decide
theorem test_decode_wrGridH :
    decodeT 0b1_00001000_00000000000000010000000000001000#41 = .ok (.wrGridH 0x00010008) := by decide
theorem test_decode_wrGridW :
    decodeT 0b1_00001100_00000000000000000000000000001010#41 = .ok (.wrGridW 10) := by decide
theorem test_decode_rdCtrl :
    decodeT 0b0_00000000_00000000000000000000000000000001#41 = .ok (.rdCtrl 1) := by decide
theorem test_decode_rdStatus :
    decodeT 0b0_00000100_00000000000000000000000000000000#41 = .ok (.rdStatus 0) := by decide
theorem test_decode_rdGridH :
    decodeT 0b0_00001000_00000000000000000000000000000000#41 = .ok (.rdGridH 0) := by decide
theorem test_decode_rdGridW :
    decodeT 0b0_00001100_00000000000000000000000000000000#41 = .ok (.rdGridW 0) := by decide
theorem test_decode_rdLen :
    decodeT 0b0_00010000_00000000000000000000000000000000#41 = .ok (.rdLen 0) := by decide
theorem test_decode_rdOutLen :
    decodeT 0b0_00010100_00000000000000000000000000000000#41 = .ok (.rdOutLen 0) := by decide
theorem test_decode_rdBitCount :
    decodeT 0b0_00011000_00000000000000000000000000000000#41 = .ok (.rdBitCount 0) := by decide
theorem test_decode_read_only : decodeT (tWord true 0x04 7) = .error (.readOnlyWrite 0x04) := by decide
theorem test_decode_misaligned_write : decodeT (tWord true 0x09 7) = .error (.unmappedWrite 0x09) := by decide
theorem test_decode_unmapped_read : decodeT (tWord false 0x1C 0) = .error (.unmappedRead 0x1C) := by decide
theorem test_decode_finish : decodeS 0b11111#5 = .ok .finish := by decide
theorem test_decode_visitAbsent : decodeS 0b00111#5 = .ok .visitAbsent := by decide
theorem test_decode_visitSkip : decodeS 0b01011#5 = .ok .visitSkip := by decide
theorem test_decode_emitHdr : decodeS 0b01100#5 = .ok .emitHdr := by decide
theorem test_decode_emitPay : decodeS 0b01101#5 = .ok .emitPay := by decide
theorem test_decode_emitDrain : decodeS 0b01110#5 = .ok .emitDrain := by decide
theorem test_decode_reserved : decodeS 0b01111#5 = .error .reservedPhase := by decide

/-! ### Host operations -/

theorem test_start_enters_busy :
    got (exec (.start 1) { inPayload 5 7 3 with phase := .done }) (fun t => (t.phase, t.k, t.bitCount, t.len, t.gridH)) =
      some (.busy, 1, 0, 0, 8) := by decide
theorem test_clear_ignored_in_busy : got (exec (.clear 2) (running 6 0)) (fun t => (t.phase, t.k)) = some (.busy, 6) := by
  decide
theorem test_clear_in_done :
    got (exec (.clear 2) { inPayload 5 7 3 with phase := .done }) (fun t => (statusWord t, t.hdrCnt)) = some (0, 0) := by
  decide
/-- 41_host_operations.md R141: writing `0x00010008` stores 8. -/
theorem test_wrGridH_low_half : got (exec (.wrGridH 0x00010008) State.reset) (·.gridH) = some 8 := by decide
/-- 41_host_operations.md R142: `WR GRID_W, 0x1FFFF` gives 65535. -/
theorem test_wrGridW_low_half : got (exec (.wrGridW 0x1FFFF) State.reset) (·.gridW) = some 65535 := by decide
theorem test_wrGridH_dropped_in_busy : got (exec (.wrGridH 16) (running 6 0)) (·.gridH) = some 8 := by decide
theorem test_rdGridW_answers : got (exec (.rdGridW 0) (running 1 0)) (·.reads) = some [8] := by decide
/-- 10_state.md R39: while `BUSY` after the header `STATUS` is `0x011`. -/
theorem test_rdStatus_in_payload : got (exec (.rdStatus 0) (inPayload 0 0 8)) (·.reads) = some [0x011] := by decide
/-- 95_test_vectors.md P2: `STATUS = 0x106` after `START` and one step on the empty grid. -/
theorem test_empty_grid :
    got (step { State.reset with phase := .busy }) (fun t => (statusWord t, t.outLen, t.k)) = some (0x106, 0, 1) := by
  decide

/-! ### The filter (95_test_vectors.md section 2) and the scanner (section 3) -/

theorem test_filter_boundary :
    [0xFFFF#16, 0#16, 1#16, 2#16, 0xFFFE#16, 3#16, 0xFFFD#16, 0x8000#16, 0x7FFF#16, 0x8001#16, 0xFFFB#16].map
      (fun w => symbolBit (signedValue w)) =
    [none, none, none, some false, some false, some true, some true, some false, some true, some true, some true] := by
  decide
theorem test_advance_index : got (exec .visitSkip (running 62 0)) (fun t => (t.bY, t.bX, t.k)) = some (0, 0, 63) := by
  decide
theorem test_advance_block :
    got (exec .visitAbsent { running 63 0 with gridW := 10 }) (fun t => (t.bY, t.bX, t.k)) = some (0, 8, 1) := by decide
theorem test_advance_band :
    got (exec .visitSkip { running 63 0 with gridW := 16, bX := 8 }) (fun t => (t.bY, t.bX, t.k)) = some (8, 0, 1) := by
  decide
theorem test_advance_no_wrap :
    got (exec .visitSkip { running 63 0 with gridH := 65535, bY := 65528 }) (fun t => (t.bY, exhausted t)) =
      some (65536, true) := by decide
/-- 42_scanner.md R166: `GRID_H = 12`, `GRID_W = 8`, `pc = (8, 0, 10)` is absent. -/
theorem test_absent_position : decodeS (selector { running 10 0 with gridH := 12, bY := 8 }) = .ok .visitAbsent := by
  decide
/-- 42_scanner.md R167: `pc = (8, 16, 5)` reads `0x00080012`. -/
theorem test_position_address :
    coefAccess { running 5 0 with gridH := 64, gridW := 64, bY := 8, bX := 16 } = some 0x00080012 := by decide
theorem test_exhausted_no_column : exhausted { running 1 0 with gridW := 0 } = true := by decide

/-! ### The framer (95_test_vectors.md sections 4 and 5) -/

theorem test_emitHdr_shifts :
    got (exec .emitHdr { running 1 2 with hdrCnt := 1, len := 1, bitCount := 1 })
      (fun t => (t.hdrCnt, t.len, t.bitCount, t.k, t.fph)) = some (2, 2, 2, 2, .hdr) := by decide
theorem test_emitHdr_completes :
    got (exec .emitHdr { running 1 3 with hdrCnt := 31, len := 0x7FFFFFFF, bitCount := 31 })
      (fun t => (t.hdrCnt, t.len, t.rem, t.fph)) = some (32, 0xFFFFFFFF, 34359738360, .pay) := by decide
theorem test_emitPay_completes_byte :
    got (exec .emitPay { inPayload 7 0b0100000 1 with k := 1 })
      (fun t => (t.pay, t.outCnt, t.nb, t.fph, t.bitCount)) = some ([(0, 0x41)], 1, 0, .drain, 40) := by decide
theorem test_emitPay_shifts :
    got (exec .emitPay { inPayload 1 0 7 with k := 1 }) (fun t => (t.pay, t.shreg, t.nb, t.rem, t.fph)) =
      some ([], 1, 2, 6, .pay) := by decide
theorem test_emitDrain_counts :
    got (exec .emitDrain { running 1 7 with fph := .drain, hdrCnt := 32, bitCount := 40 })
      (fun t => (t.bitCount, t.k, t.pay)) = some (41, 2, []) := by decide
/-- Vector E5. -/
theorem test_finish_pad :
    got (exec .finish { inPayload 2 0b11 6 with len := 2, outCnt := 1 })
      (fun t => (t.pay, t.outLen, t.outCnt, statusWord t, t.rem)) = some ([(1, 0xC0)], 2, 2, 0x01A, 6) := by decide
/-- Vector E6. -/
theorem test_finish_strict :
    got (exec .finish { inPayload 2 0b11 6 with len := 2, outCnt := 1, policy := .strict })
      (fun t => (t.pay, t.outLen, t.outCnt, statusWord t, t.nb)) = some ([], 0, 1, 0x21E, 2) := by decide

/-! ### The reference functions (95_test_vectors.md section 6) and the table -/

theorem test_pack : pack [false, true, false, false, false, false, false, true] = [0x41] ∧
    pack [true, true] = [0xC0] ∧ pack [true, false, true] = [0xA0] ∧ pack [] = [] := by decide
/-- Vector F8: one byte for a declared length of 2. -/
theorem test_decodeFrame_short :
    decodeFrame .pad (List.replicate 30 false ++ [true, false, true, false, true]) = .ok [0xA0] true ∧
    decodeFrame .strict (List.replicate 30 false ++ [true, false, true, false, true]) = .err .truncatedPayload := by
  decide
theorem test_bitsOf : bitsOf 8 0x41 = [false, true, false, false, false, false, false, true] := by decide
/-- 42_scanner.md R172: the positions read of a grid of 2 by 3. -/
theorem test_scanPositions : scanPositions 2 3 = [(0, 1), (1, 0), (1, 1), (0, 2), (1, 2)] := by decide

/-! ### A word placed by `withFetchWord` runs next, from reset -/

theorem test_fetch_start : got (step (State.reset.withFetchWord 48 0x10000000001)) (·.phase) = some .busy := by decide
theorem test_fetch_finish : got (step (State.reset.withFetchWord 8 0x10)) (·.phase) = some .done := by decide
theorem test_fetch_visitAbsent : got (step (State.reset.withFetchWord 8 0x00)) (·.k) = some 2 := by decide
theorem test_fetch_visitSkip :
    got (step (State.reset.withFetchWord 8 0x08)) (fun t => (t.k, t.bitCount)) = some (2, 0) := by decide
theorem test_fetch_emitHdr :
    got (step (State.reset.withFetchWord 8 0x0C)) (fun t => (t.hdrCnt, t.bitCount)) = some (1, 1) := by decide
theorem test_fetch_emitPay :
    got (step (State.reset.withFetchWord 8 0x0D)) (fun t => (t.nb, t.bitCount)) = some (1, 1) := by decide
theorem test_fetch_emitDrain :
    got (step (State.reset.withFetchWord 8 0x0E)) (fun t => (t.hdrCnt, t.bitCount)) = some (0, 1) := by decide

/-! ### Program notation: the turns of `SETDIM 12, 10`, with the words of 95_test_vectors.md section 7 -/

theorem test_setDim_turns :
    (setDim 12 10).flatMap lineTurns = [.host 0x1080000000C, .host 0x10C0000000A] := by decide
theorem test_run_turns :
    (runLines [1]).flatMap lineTurns = [.host 0x10000000001, .sequencer, .host 0x00400000000] := by decide

/-! ### Witnesses: concrete values that meet the hypotheses of the statements -/

theorem witness_HardwareResetKeepsMemories :
    (turning .hardReset (running 6 3)).turns = .hardReset :: [] := rfl
theorem witness_PlatformPlacesOneWord :
    (turning (.coefWrite 0xFFFF 0 5) State.reset).turns = .coefWrite 0xFFFF 0 5 :: [] ∧
      ((0, 0xFFFF) : BitVec 16 × BitVec 16) ≠ (0xFFFF, 0) := by decide
theorem witness_HostTurnRunsDecodedOperation :
    (turning (.host (tWord true 0 1)) State.reset).turns = .host (tWord true 0 1) :: [] ∧
      decodeT (tWord true 0 1) = .ok (.start 1) := by decide
theorem witness_SequencerTurnRunsSelectedOperation_listed :
    (turning .sequencer (running 1 3)).turns = .sequencer :: [] ∧ (turning .sequencer (running 1 3)).phase = .busy := by
  decide
theorem witness_SequencerTurnRunsSelectedOperation_rest :
    State.reset.turns = [] ∧ State.reset.phase ≠ .busy := by decide
theorem witness_PlacedWordRunsNext :
    decodeTableWord 8 0x0E = some .emitDrain ∧ decodeTableWord 48 0x10800000008 = some (.wrGridH 8) := by decide
theorem witness_DecodeOfEncodeIsIdentity :
    (Instr.clear 0xFFFFFFFE).wellFormed = true ∧ Instr.emitPay.wellFormed = true := by decide
theorem witness_TransactionWordIsRecovered : decodeT 0x1FF#41 = .ok (.rdCtrl 0x1FF) := by decide
theorem witness_TransactionRowsByMask : ("START", 0x10000000001#41, 0x1FF00000001#41) ∈ hostRows := by decide
/-- The count of selected rows at the edges of the address ranges of 30_encoding.md R103. -/
theorem test_rows_selected :
    [tWord true 0x00 0, tWord true 0x04 0, tWord true 0x08 0, tWord true 0x0C 0, tWord true 0x18 0, tWord true 0x1C 0,
      tWord false 0x04 0, tWord false 0x18 0, tWord false 0x19 0, tWord false 0x1C 0, tWord true 0x00 3].map
      (fun t => (hostRows.filter fun r => decide (t &&& r.2.2 = r.2.1)).length) =
    [1, 0, 1, 1, 0, 0, 1, 1, 0, 0, 1] := by decide
theorem witness_SelectorRowsByMask : ("EMIT_DRAIN", 0x0E#5, 0x1F#5) ∈ sequencerRows := by decide
theorem witness_StartBeginsOperation_start :
    (3#32).getLsbD 0 = true ∧ State.reset.phase ≠ .busy ∧ State.reset.gridH = 0 ∧ State.reset.gridW = 0 := by decide
theorem witness_StartBeginsOperation_busy : (running 6 3).phase = .busy := rfl
theorem witness_ClearReturnsToIdle_clear :
    (2#32).getLsbD 0 = false ∧ (2#32).getLsbD 1 = true ∧ { running 6 3 with phase := .done }.phase ≠ Phase.busy := by
  decide
theorem witness_ControlNopChangesNothing : (0xFFFFFFFC#32).getLsbD 0 = false ∧ (0xFFFFFFFC#32).getLsbD 1 = false := by
  decide
theorem witness_ReservedTransactionsHaveNoEffect_write :
    0x04#8 ∉ [0x00#8, 0x08#8, 0x0C#8] ∧ 0x0D#8 ∉ [0x00#8, 0x08#8, 0x0C#8] ∧
      (turning (.host (tWord true 0x04 7)) State.reset).turns = .host (tWord true 0x04 7) :: [] := by decide
theorem witness_ReservedTransactionsHaveNoEffect_read :
    0x1C#8 ∉ [0x00#8, 0x04#8, 0x08#8, 0x0C#8, 0x10#8, 0x14#8, 0x18#8] ∧
      0x01#8 ∉ [0x00#8, 0x04#8, 0x08#8, 0x0C#8, 0x10#8, 0x14#8, 0x18#8] ∧
      (turning (.host (tWord false 0x1C 7)) State.reset).turns = .host (tWord false 0x1C 7) :: [] := by decide
theorem witness_BusyLosesEveryWrite :
    (turning (.host (tWord true 0 2)) (running 6 3)).turns = .host (tWord true 0 2) :: [] ∧
      tWe (tWord true 0 2) = true ∧ (turning (.host (tWord true 0 2)) (running 6 3)).phase = .busy := by decide
theorem witness_ReadTransactionsFollowRegisterMap :
    (turning (.host (tWord false 0x18 0)) (running 6 3)).turns = .host (tWord false 0x18 0) :: [] ∧
      tWe (tWord false 0x18 0) = false := by decide
theorem witness_SkippedPositionsOnlyAdvance_absent :
    decodeS (selector { running 10 0 with gridH := 12, bY := 8 }) = .ok .visitAbsent ∧
      { running 10 0 with gridH := 12, bY := 8 }.phase = .busy := by decide
theorem witness_SkippedPositionsOnlyAdvance_inv : CoreInv { running 10 0 with gridH := 12, bY := 8 } := by
  constructor <;> decide
theorem witness_SkippedPositionsOnlyAdvance_skip : decodeS (selector (running 1 1)) = .ok .visitSkip := by decide
theorem witness_SkippedPositionsOnlyAdvance :
    (0b00111#5).getLsbD 4 = false ∧ (0b00111#5).getLsbD 3 = false ∧
      (0b01011#5).getLsbD 4 = false ∧ (0b01011#5).getLsbD 3 = true ∧ (0b01011#5).getLsbD 2 = false := by decide
theorem witness_EmitHeaderShiftsLength :
    1#32 = BitVec.ofNat 32 (2 * { running 1 3 with hdrCnt := 31 }.len.toNat +
      (valueAt { running 1 3 with hdrCnt := 31 }).natAbs % 2) := by decide
theorem witness_EmitPayloadAssemblesByte :
    0x41#8 = BitVec.ofNat 8 (2 * (inPayload 7 0x20 1).shreg.toNat +
      (valueAt { inPayload 7 0x20 1 with k := 1 }).natAbs % 2) ∧
      (inPayload 7 0x20 1).nb = 7 ∧ (inPayload 6 0x20 2).nb ≠ 7 := by decide
theorem witness_FinishTakesFirstOutcome_selected :
    decodeS (selector { running 1 3 with bY := 8 }) = .ok .finish := by decide
theorem witness_FinishTakesFirstOutcome_header :
    (0b10000#5).getLsbD 4 = true ∧ { running 1 3 with hdrCnt := 31 }.hdrCnt.toNat < 32 := by decide
theorem witness_FinishTakesFirstOutcome_complete :
    32 ≤ { inPayload 0 0 0 with fph := .drain }.hdrCnt.toNat ∧ { inPayload 0 0 0 with fph := .drain }.rem = 0 := by
  decide
theorem witness_FinishTakesFirstOutcome_pad :
    32 ≤ (inPayload 2 3 6).hdrCnt.toNat ∧ (inPayload 2 3 6).rem ≠ 0 ∧ (inPayload 2 3 6).policy = .pad ∧
      (inPayload 2 3 6).nb ≠ 0 ∧ (inPayload 0 0 8).nb = 0 ∧ (inPayload 0 0 8).rem ≠ 0 := by decide
theorem witness_FinishTakesFirstOutcome_strict :
    32 ≤ (inPayload 2 3 6).hdrCnt.toNat ∧ { inPayload 2 3 6 with policy := .strict }.rem ≠ 0 ∧
      { inPayload 2 3 6 with policy := .strict }.policy = Config.UnderrunPolicy.strict := by decide
theorem witness_OperationsReachTheirSpaces :
    exec .visitSkip (running 1 0) = .next (advance (running 1 0)) ∧ (5 : Nat) ≠ (running 1 0).outCnt.toNat ∧
      (running 1 0).nb ≠ 7 ∧ Instr.visitSkip ≠ .finish := by
  refine ⟨rfl, ?_⟩; decide
theorem witness_CoefficientReadsStayInGrid : coefAccess (running 63 3) = some 0x00070007 := by decide
theorem witness_PhaseTransitionsOnlyByCommands_start :
    step (turning (.host (tWord true 0 1)) State.reset) = .next { State.reset with phase := .busy } ∧
      nextTurn (turning (.host (tWord true 0 1)) State.reset) ≠ .hardReset := by
  refine ⟨rfl, ?_⟩; decide
theorem witness_PhaseTransitionsOnlyByCommands_finish :
    step { State.reset with phase := .busy } =
      .next { State.reset with phase := .done, errCode := .insufficientHeader } ∧
      nextTurn { State.reset with phase := .busy } ≠ .hardReset := by
  refine ⟨rfl, ?_⟩; decide
theorem witness_PhaseTransitionsOnlyByCommands_clear :
    step (turning (.host (tWord true 0 2)) { State.reset with phase := .done, errCode := .insufficientHeader }) =
      .next State.reset := rfl
theorem witness_ResultsStayUntilNextCommand :
    nextTurn (raiseFraming .insufficientHeader (running 1 3)) = .sequencer ∧
      (turning (.host (tWord true 8 5)) { State.reset with phase := .done, errCode := .insufficientHeader }).phase =
        .done ∧
      step (turning (.host (tWord true 8 5)) { State.reset with phase := .done, errCode := .insufficientHeader }) =
        .next { State.reset with phase := .done, errCode := .insufficientHeader, gridH := 5 } ∧
      Commands (.host (tWord true 8 5)) = false ∧ Turn.host (tWord true 8 5) ≠ .hardReset := by
  refine ⟨rfl, rfl, rfl, ?_⟩; decide
theorem witness_PolicyAndGridNotWrittenByCore :
    step (running 1 2) = .next (advance (headerBit false (countBit (running 1 2)))) ∧
      nextTurn (running 1 2) = .sequencer := by
  refine ⟨rfl, rfl⟩
theorem witness_CoefficientsNeverSteerScan :
    ScanAgree (running 1 0) { running 1 3 with len := 7, hdrCnt := 5 } ∧
      step (running 1 0) = .next (advance (running 1 0)) ∧
      step { running 1 3 with len := 7, hdrCnt := 5 } =
        .next (advance (headerBit true (countBit { running 1 3 with len := 7, hdrCnt := 5 }))) :=
  ⟨⟨rfl, rfl, rfl, rfl, rfl, rfl, rfl⟩, rfl, rfl⟩

/-- The invariant of an `IDLE` state, of a `BUSY` state before the header is complete and of one after it. -/
theorem witness_CoreInv_idle : CoreInv { State.reset with gridH := 8 } := by constructor <;> decide
theorem witness_CoreInv_header :
    CoreInv { running 6 3 with bitCount := 2, hdrCnt := 2, len := 3 } := by constructor <;> decide
theorem witness_CoreInv_payload : CoreInv (inPayload 5 0x1F 3) := by constructor <;> decide
theorem witness_CoreInv_drain :
    CoreInv { inPayload 0 0 0 with fph := .drain, bitCount := 40, outCnt := 1 } := by constructor <;> decide

/-- The invariant of the four ends of an operation. -/
theorem witness_CoreInv_insufficientHeader :
    CoreInv { running 1 3 with bY := 8, bitCount := 31, hdrCnt := 31, phase := .done, errCode := .insufficientHeader } := by
  constructor <;> decide
theorem witness_CoreInv_complete :
    CoreInv { inPayload 0 0 0 with fph := .drain, bitCount := 40, outCnt := 1, outLen := 1, phase := .done } := by
  constructor <;> decide
theorem witness_CoreInv_padded :
    CoreInv { inPayload 0 0 6 with
      len := 2, bitCount := 42, outCnt := 2, outLen := 2, underrun := true, phase := .done } := by
  constructor <;> decide
theorem witness_CoreInv_truncated :
    CoreInv { inPayload 2 3 6 with
      len := 2, bitCount := 42, outCnt := 1, errCode := .truncatedPayload, underrun := true, phase := .done,
      policy := .strict } := by
  constructor <;> decide
theorem witness_ClearReturnsToIdle_idle :
    CoreInv { State.reset with gridH := 8 } ∧ { State.reset with gridH := 8 }.phase = Phase.idle :=
  ⟨witness_CoreInv_idle, rfl⟩
theorem witness_InvariantKeptByEveryStep :
    CoreInv (running 1 3) ∧ step (running 1 3) = .next (advance (headerBit true (countBit (running 1 3)))) :=
  ⟨by constructor <;> decide, rfl⟩
theorem witness_BytesWrittenNeverExceedLength :
    CoreInv (inPayload 5 0x1F 3) ∧ (inPayload 5 0x1F 3).phase ≠ .done ∧ (inPayload 5 0x1F 3).policy = .pad ∧
      (inPayload 5 0x1F 3).hdrCnt.toNat = 32 ∧ (inPayload 5 0x1F 3).rem ≠ 0 := by
  refine ⟨witness_CoreInv_payload, ?_⟩; decide
/-- The literal second half of 44_framer.md R198 fails before `FINISH` (log 15): here `REM = 3 < 8` after the header,
and `OUTCNT = 0` while `LEN = 1`. -/
theorem test_outCnt_below_len_with_small_rem :
    CoreInv (inPayload 5 0x1F 3) ∧ (inPayload 5 0x1F 3).rem.toNat < 8 ∧ (inPayload 5 0x1F 3).outCnt = 0 ∧
      (inPayload 5 0x1F 3).len = 1 := by
  refine ⟨witness_CoreInv_payload, ?_⟩; decide
/-- The same sentence fails in `DONE` under `STRICT`, with the registers of vector E6 (95_test_vectors.md section 5). -/
theorem test_outCnt_below_len_with_small_rem_strict :
    CoreInv { inPayload 2 3 6 with
      len := 2, bitCount := 42, outCnt := 1, errCode := .truncatedPayload, underrun := true, phase := .done,
      policy := .strict } ∧ (6#35).toNat < 8 ∧ (1#32) ≠ 2#32 := ⟨witness_CoreInv_truncated, by decide⟩
theorem witness_BytesWrittenNeverExceedLength_padded :
    CoreInv { inPayload 0 0 6 with
      len := 2, bitCount := 42, outCnt := 2, outLen := 2, underrun := true, phase := .done } ∧
      (inPayload 0 0 6).policy = .pad ∧ (inPayload 0 0 6).hdrCnt.toNat = 32 := ⟨witness_CoreInv_padded, by decide⟩
theorem witness_StatusTellsTheOutcome_short :
    CoreInv { running 1 3 with bY := 8, bitCount := 31, hdrCnt := 31, phase := .done, errCode := .insufficientHeader } ∧
      (31#32).toNat < 32 := ⟨witness_CoreInv_insufficientHeader, by decide⟩
theorem witness_StatusTellsTheOutcome_complete :
    CoreInv { inPayload 0 0 0 with fph := .drain, bitCount := 40, outCnt := 1, outLen := 1, phase := .done } ∧
      32 ≤ (40#32).toNat ∧ (inPayload 0 0 0).rem = 0 := ⟨witness_CoreInv_complete, by decide⟩
theorem witness_StatusTellsTheOutcome_padded :
    CoreInv { inPayload 0 0 6 with
      len := 2, bitCount := 42, outCnt := 2, outLen := 2, underrun := true, phase := .done } ∧
      32 ≤ (42#32).toNat ∧ (inPayload 0 0 6).rem ≠ 0 ∧ (inPayload 0 0 6).policy = .pad :=
  ⟨witness_CoreInv_padded, by decide⟩
theorem witness_StatusTellsTheOutcome_truncated :
    CoreInv { inPayload 2 3 6 with
      len := 2, bitCount := 42, outCnt := 1, errCode := .truncatedPayload, underrun := true, phase := .done,
      policy := .strict } ∧ 32 ≤ (42#32).toNat ∧ (inPayload 2 3 6).rem ≠ 0 :=
  ⟨witness_CoreInv_truncated, by decide⟩
theorem witness_ExtractIgnoresDcCoefficients :
    ∀ row col : Nat, row < 8 → col < 8 → ¬ (8 ∣ row ∧ 8 ∣ col) →
      (fun r c : Nat => if r = 0 ∧ c = 0 then (100 : Int) else 3) row col = (fun _ _ : Nat => (3 : Int)) row col := by
  intro row col _ _ h
  have : ¬ (row = 0 ∧ col = 0) := fun ⟨hr, hc⟩ => h ⟨⟨0, by omega⟩, ⟨0, by omega⟩⟩
  simp [this]
theorem witness_DecodedLengthByPolicy_short :
    32 ≤ (List.replicate 31 false ++ [true]).length ∧ declaredLength (List.replicate 31 false ++ [true]) = 1 ∧
      (List.replicate 31 false ++ [true]).length - 32 < 8 * 1 ∧ 7 < 8 * 1 - 0 ∧ ¬ 7 < 8 * 1 - 1 := by decide
theorem witness_DecodedLengthByPolicy_whole :
    32 ≤ (List.replicate 32 false).length ∧ declaredLength (List.replicate 32 false) = 0 := by decide
theorem witness_FramedPayloadDecodesToItself :
    (∀ b ∈ [0x48, 0xFF], b < 256) ∧ [0x48, 0xFF].length < 2 ^ 32 := by decide
theorem witness_TrailingBitsNeverMatter :
    decodeFrame .pad (List.replicate 31 false ++ [true] ++ List.replicate 8 true) = .ok [0xFF] false := by decide

/-- Turns for an operation on an 8 by 8 grid: 63 visits with a host write among them, then `FINISH`. -/
def blockTurns : List Turn :=
  List.replicate 62 Turn.sequencer ++ [Turn.host (tWord true 0 2), Turn.sequencer]

theorem witness_whole_operation :
    let s : State := { State.reset with
      gridH := 8, gridW := 8, turns := Turn.host (tWord true 0x00 1) :: (blockTurns ++ [Turn.sequencer] ++ []) }
    s.phase ≠ .busy ∧ (1#32).getLsbD 0 = true ∧
      s.turns = Turn.host (tWord true 0x00 1) :: ((blockTurns ++ [Turn.sequencer]) ++ []) ∧
      (blockTurns ++ [Turn.sequencer]).getLast? = some Turn.sequencer ∧
      (blockTurns ++ [Turn.sequencer]).count Turn.sequencer = visitCount s.gridH.toNat s.gridW.toNat + 1 ∧
      blockTurns.count Turn.sequencer = visitCount s.gridH.toNat s.gridW.toNat := by decide
theorem witness_whole_operation_quiet : ∀ u ∈ blockTurns ++ [Turn.sequencer], Quiet u := by
  intro u hu
  simp only [blockTurns, List.mem_append, List.mem_replicate, List.mem_cons, List.not_mem_nil, or_false] at hu
  rcases hu with (⟨_, rfl⟩ | rfl | rfl) | rfl <;> trivial

end Sys2Proof.Tests
end

/-! PROOFS. The rows of the opcode table against the decoder (30_encoding.md R99, R101, R103), and the codes that no
state holds (R102).

A row of either table selects a word by its match and mask columns. Both equivalences rest on one argument: no two
rows select the same word, a word that decodes is selected by the row of its operation, and a word that does not
decode is selected by no row. -/

namespace Sys2Proof.Proofs.Encoding

open Sys2Proof.Machine

/-! ### Tables of match and mask rows -/

/-- A word selects a row when the bits under the row's mask are the row's match (30_encoding.md R99). -/
abbrev Selects {n : Nat} (w : BitVec n) (r : String × BitVec n × BitVec n) : Prop :=
  w &&& r.2.2 = r.2.1

/-- No two rows of the table select the same word: under both masks, their matches differ. -/
def PairwiseDisjoint {n : Nat} (rows : List (String × BitVec n × BitVec n)) : Prop :=
  ∀ r ∈ rows, ∀ r' ∈ rows, r ≠ r' → r.2.1 &&& r'.2.2 ≠ r'.2.1 &&& r.2.2

theorem matches_agree_of_selects {n : Nat} {r r' : String × BitVec n × BitVec n} {w : BitVec n}
    (h : Selects w r) (h' : Selects w r') : r.2.1 &&& r'.2.2 = r'.2.1 &&& r.2.2 := by
  rw [← h, ← h', BitVec.and_assoc, BitVec.and_assoc, BitVec.and_comm r.2.2]

section Table

variable {n : Nat} {ε : Type} {rows : List (String × BitVec n × BitVec n)} {w : BitVec n}

/-- A word selected by row `own` selects no other row of a table of disjoint rows. -/
theorem selects_iff_eq (hd : PairwiseDisjoint rows) {own r : String × BitVec n × BitVec n} (hown : own ∈ rows)
    (hsel : Selects w own) (hr : r ∈ rows) : Selects w r ↔ r = own := by
  constructor
  · intro h
    by_contra hne
    exact hd r hr own hown hne (matches_agree_of_selects h hsel)
  · rintro rfl
    exact hsel

/-- A word selects a row exactly when it decodes to the operation with the row's mnemonic, if it selects its own
operation's row and, where it does not decode, none. -/
theorem selects_iff_mnemonic (hd : PairwiseDisjoint rows) (hnames : (rows.map Prod.fst).Nodup) (d : Except ε Instr)
    (hok : ∀ i, d = .ok i → ∃ own ∈ rows, own.1 = mnemonic i ∧ Selects w own)
    (herr : ∀ e, d = .error e → ∀ r ∈ rows, ¬ Selects w r)
    {r : String × BitVec n × BitVec n} (hr : r ∈ rows) :
    Selects w r ↔ ∃ i, d = .ok i ∧ mnemonic i = r.1 := by
  cases d with
  | error e => simpa using herr e rfl r hr
  | ok i =>
    obtain ⟨own, hown, hname, hsel⟩ := hok i rfl
    have hself : r = own ↔ mnemonic i = r.1 := by
      rw [← hname]
      exact ⟨fun h => h ▸ rfl, fun h => List.inj_on_of_nodup_map hnames hr hown h.symm⟩
    simpa [hself] using selects_iff_eq hd hown hsel hr

/-- A word that selects a row of a table of disjoint rows selects one row. -/
theorem count_selected_eq_one (hd : PairwiseDisjoint rows) (hrows : rows.Nodup) {own : String × BitVec n × BitVec n}
    (hown : own ∈ rows) (hsel : Selects w own) :
    (rows.filter fun r => decide (w &&& r.2.2 = r.2.1)).length = 1 := by
  have hsame : (rows.filter fun r => decide (w &&& r.2.2 = r.2.1)) = rows.filter (· == own) :=
    List.filter_congr fun r hr => by
      rw [Bool.eq_iff_iff, decide_eq_true_iff, beq_iff_eq]
      exact selects_iff_eq hd hown hsel hr
  rw [hsame, ← List.countP_eq_length_filter]
  exact List.count_eq_one_of_mem hrows hown

theorem count_selected_eq_zero (hnone : ∀ r ∈ rows, ¬ Selects w r) :
    (rows.filter fun r => decide (w &&& r.2.2 = r.2.1)).length = 0 := by
  simpa using hnone

end Table

theorem hostRows_disjoint : PairwiseDisjoint hostRows := by
  unfold PairwiseDisjoint
  decide

theorem sequencerRows_disjoint : PairwiseDisjoint sequencerRows := by
  unfold PairwiseDisjoint
  decide

theorem hostRows_names_nodup : (hostRows.map Prod.fst).Nodup := by decide

theorem sequencerRows_names_nodup : (sequencerRows.map Prod.fst).Nodup := by decide

/-! ### The `T` word and its decoder -/

@[simp] theorem tWord_fields (t : TWord) : tWord (tWe t) (tAddr t) (tWdata t) = t := by
  apply BitVec.eq_of_getLsbD_eq
  intro i hi
  rw [Laws.tWord_getLsbD]
  split
  · next h => simp [tWdata, h]
  · split
    · next h h' => simp [tAddr, show i - 32 < 8 by omega, show 32 + (i - 32) = i by omega]
    · next h h' =>
      obtain rfl : i = 40 := by omega
      simp [tWe]

theorem tWe_and (t m : TWord) : tWe (t &&& m) = (tWe t && tWe m) := by
  simp [tWe]

theorem tAddr_and (t m : TWord) : tAddr (t &&& m) = tAddr t &&& tAddr m := by
  exact BitVec.extractLsb'_and

/-- The command decoder keeps the write data: what it gives is well formed and encodes to the write. -/
theorem encode_decodeCtrl (wdata : Word) :
    (decodeCtrl wdata).wellFormed = true ∧ encode (decodeCtrl wdata) = .t (tWord true 0x00 wdata) := by
  unfold decodeCtrl
  split
  · next h0 => exact ⟨h0, rfl⟩
  · next h0 =>
    rw [Bool.not_eq_true] at h0
    split
    · next h1 => exact ⟨by simp only [Instr.wellFormed, h0, h1]; rfl, rfl⟩
    · next h1 =>
      rw [Bool.not_eq_true] at h1
      exact ⟨by simp only [Instr.wellFormed, h0, h1]; rfl, rfl⟩

theorem encode_of_decodeWrite {addr : BitVec 8} {wdata : Word} {i : Instr} (h : decodeWrite addr wdata = .ok i) :
    i.wellFormed = true ∧ encode i = .t (tWord true addr wdata) := by
  unfold decodeWrite at h
  split_ifs at h with h0 h8 hC <;> cases h
  · exact h0 ▸ encode_decodeCtrl wdata
  · exact h8 ▸ ⟨rfl, rfl⟩
  · exact hC ▸ ⟨rfl, rfl⟩

theorem encode_of_decodeRead {addr : BitVec 8} {wdata : Word} {i : Instr} (h : decodeRead addr wdata = .ok i) :
    i.wellFormed = true ∧ encode i = .t (tWord false addr wdata) := by
  unfold decodeRead at h
  split_ifs at h with haddr haddr haddr haddr haddr haddr haddr <;> cases h <;> exact haddr ▸ ⟨rfl, rfl⟩

/-- No bit of a `T` word is lost by decoding it (30_encoding.md R97 to R99). -/
theorem encode_of_decodeT {t : TWord} {i : Instr} (h : decodeT t = .ok i) :
    i.wellFormed = true ∧ encode i = .t t := by
  rw [← tWord_fields t]
  unfold decodeT at h
  revert h
  cases tWe t
  · exact encode_of_decodeRead
  · exact encode_of_decodeWrite

/-- The transactions that select no row (30_encoding.md R103): a write to a read-only register, and any access to an
address with no register. -/
def Reserved (we : Bool) (addr : BitVec 8) : Prop :=
  (we = true ∧ addr ∈ [0x04#8, 0x10#8, 0x14#8, 0x18#8]) ∨
    addr ∉ [0x00#8, 0x04#8, 0x08#8, 0x0C#8, 0x10#8, 0x14#8, 0x18#8]

theorem decodeWrite_isOk (addr : BitVec 8) (wdata : Word) :
    (∃ i, decodeWrite addr wdata = .ok i) ↔ ¬ Reserved true addr := by
  unfold decodeWrite Reserved
  split_ifs <;> simp_all

theorem decodeRead_isOk (addr : BitVec 8) (wdata : Word) :
    (∃ i, decodeRead addr wdata = .ok i) ↔ ¬ Reserved false addr := by
  unfold decodeRead Reserved
  split_ifs <;> simp_all

/-- A `T` word decodes unless it is one of those 30_encoding.md R103 lists. -/
theorem decodeT_isOk (t : TWord) : (∃ i, decodeT t = .ok i) ↔ ¬ Reserved (tWe t) (tAddr t) := by
  unfold decodeT
  cases tWe t
  · exact decodeRead_isOk (tAddr t) (tWdata t)
  · exact decodeWrite_isOk (tAddr t) (tWdata t)

/-- Every operation's word lies in the operation's own row. -/
theorem rowMatch : ∀ i : Instr, Laws.RowMatch.Statement i
  | .start wdata => Laws.RowMatch.start wdata
  | .clear wdata => Laws.RowMatch.clear wdata
  | .ctrlNop wdata => Laws.RowMatch.ctrlNop wdata
  | .wrGridH wdata => Laws.RowMatch.wrGridH wdata
  | .wrGridW wdata => Laws.RowMatch.wrGridW wdata
  | .rdCtrl wdata => Laws.RowMatch.rdCtrl wdata
  | .rdStatus wdata => Laws.RowMatch.rdStatus wdata
  | .rdGridH wdata => Laws.RowMatch.rdGridH wdata
  | .rdGridW wdata => Laws.RowMatch.rdGridW wdata
  | .rdLen wdata => Laws.RowMatch.rdLen wdata
  | .rdOutLen wdata => Laws.RowMatch.rdOutLen wdata
  | .rdBitCount wdata => Laws.RowMatch.rdBitCount wdata
  | .finish => Laws.RowMatch.finish
  | .visitAbsent => Laws.RowMatch.visitAbsent
  | .visitSkip => Laws.RowMatch.visitSkip
  | .emitHdr => Laws.RowMatch.emitHdr
  | .emitPay => Laws.RowMatch.emitPay
  | .emitDrain => Laws.RowMatch.emitDrain

theorem decodeT_selects_own_row {t : TWord} {i : Instr} (h : decodeT t = .ok i) :
    ∃ own ∈ hostRows, own.1 = mnemonic i ∧ Selects t own := by
  obtain ⟨hwf, henc⟩ := encode_of_decodeT h
  have hmatch := rowMatch i hwf
  rw [henc] at hmatch
  obtain ⟨fixed, mask, hrow, hsel⟩ := hmatch
  exact ⟨(mnemonic i, fixed, mask), hrow, rfl, hsel⟩

/-- Every row's mask covers `we` and `addr`, and its match is no transaction of 30_encoding.md R103. -/
theorem hostRows_cover_register : ∀ r ∈ hostRows,
    tWe r.2.2 = true ∧ tAddr r.2.2 = 0xFF#8 ∧ ¬ Reserved (tWe r.2.1) (tAddr r.2.1) := by
  unfold Reserved
  decide

theorem not_selects_of_reserved {t : TWord} (h : Reserved (tWe t) (tAddr t)) : ∀ r ∈ hostRows, ¬ Selects t r := by
  intro r hr hsel
  obtain ⟨hwe, haddr, hfree⟩ := hostRows_cover_register r hr
  have hsameWe : tWe r.2.1 = tWe t := by rw [← hsel, tWe_and, hwe, Bool.and_true]
  have hsameAddr : tAddr r.2.1 = tAddr t := by
    rw [← hsel, tAddr_and, haddr]
    exact BitVec.and_allOnes
  exact hfree (hsameWe ▸ hsameAddr ▸ h)

theorem reserved_of_decodeT_error {t : TWord} {e : TReject} (h : decodeT t = .error e) :
    Reserved (tWe t) (tAddr t) := by
  by_contra hfree
  obtain ⟨i, hi⟩ := (decodeT_isOk t).mpr hfree
  cases h.symm.trans hi

/-- Settles O11: the rows of the host table are disjoint, and what decodes lies in its own row. -/
theorem transactionRowsByMask : Obligations.TransactionRowsByMask := by
  intro t
  refine ⟨fun r hr => ?_, ?_⟩
  · exact selects_iff_mnemonic hostRows_disjoint hostRows_names_nodup (decodeT t)
      (fun _ => decodeT_selects_own_row) (fun _ he => not_selects_of_reserved (reserved_of_decodeT_error he)) hr
  · split
    · next hres => exact count_selected_eq_zero (not_selects_of_reserved hres)
    · next hfree =>
      obtain ⟨i, hi⟩ := (decodeT_isOk t).mpr hfree
      obtain ⟨own, hown, -, hsel⟩ := decodeT_selects_own_row hi
      exact count_selected_eq_one hostRows_disjoint (List.Nodup.of_map _ hostRows_names_nodup) hown hsel

/-! ### The `S` word and its decoder -/

/-- The only `S` word that selects no operation: `0 1 1 11` (30_encoding.md R102). -/
theorem eq_of_decodeS_error {w : SWord} {e : SReject} (h : decodeS w = .error e) : w = 0b01111#5 := by
  cases e
  revert w
  decide

/-! What each mask of 30_encoding.md R101 reads of an `S` word, under the decoder's branch conditions; over the 32
words. -/

theorem and_mask_exh : ∀ w : SWord, w.getLsbD 4 = true → w &&& 0x10#5 = 0x10#5 := by decide

theorem and_mask_pres : ∀ w : SWord, ¬ w.getLsbD 4 = true → (!w.getLsbD 3) = true → w &&& 0x18#5 = 0x00#5 := by
  decide

theorem and_mask_use : ∀ w : SWord, ¬ w.getLsbD 4 = true → ¬ (!w.getLsbD 3) = true → (!w.getLsbD 2) = true →
    w &&& 0x1C#5 = 0x08#5 := by decide

theorem and_mask_fph : ∀ (w : SWord) (fph : BitVec 2), ¬ w.getLsbD 4 = true → ¬ (!w.getLsbD 3) = true →
    ¬ (!w.getLsbD 2) = true → w.extractLsb' 0 2 = fph → w &&& 0x1F#5 = 0b011#3 ++ fph := by decide

/-- What decodes to `i` has the bits that `i`'s row fixes, branch by branch of the decoder. -/
theorem decodeS_selects_own_row {w : SWord} {i : Instr} (h : decodeS w = .ok i) :
    ∃ own ∈ sequencerRows, own.1 = mnemonic i ∧ Selects w own := by
  unfold decodeS at h
  split_ifs at h with hExh hPres hUse hHdr hPay hDrain <;> cases h
  · exact ⟨("FINISH", 0x10, 0x10), by decide, rfl, and_mask_exh w hExh⟩
  · exact ⟨("VISIT_ABSENT", 0x00, 0x18), by decide, rfl, and_mask_pres w hExh hPres⟩
  · exact ⟨("VISIT_SKIP", 0x08, 0x1C), by decide, rfl, and_mask_use w hExh hPres hUse⟩
  · exact ⟨("EMIT_HDR", 0x0C, 0x1F), by decide, rfl, and_mask_fph w 0 hExh hPres hUse hHdr⟩
  · exact ⟨("EMIT_PAY", 0x0D, 0x1F), by decide, rfl, and_mask_fph w 1 hExh hPres hUse hPay⟩
  · exact ⟨("EMIT_DRAIN", 0x0E, 0x1F), by decide, rfl, and_mask_fph w 2 hExh hPres hUse hDrain⟩

theorem not_selects_reserved_word : ∀ r ∈ sequencerRows, ¬ Selects 0b01111#5 r := by decide

/-- Settles O12, by the same argument as O11. -/
theorem selectorRowsByMask : Obligations.SelectorRowsByMask := fun w _ hr =>
  selects_iff_mnemonic sequencerRows_disjoint sequencerRows_names_nodup (decodeS w)
    (fun _ => decodeS_selects_own_row) (fun _ he => eq_of_decodeS_error he ▸ not_selects_reserved_word) hr

/-! ### The codes that no state holds -/

theorem framerCode_ne_three (f : FramerPhase) : framerCode f ≠ 3#2 := by
  cases f <;> decide

theorem selector_decodes (s : State) (e : SReject) : decodeS (selector s) ≠ .error e := fun h =>
  framerCode_ne_three s.fph <| by rw [← selector_fph, eq_of_decodeS_error h]; rfl

theorem errNumber_le_two (e : ErrCode) : (errNumber e).toNat ≤ 2 := by
  cases e <;> decide

theorem append_toNat {m n : Nat} (x : BitVec m) (y : BitVec n) : (x ++ y).toNat = x.toNat * 2 ^ n + y.toNat := by
  rw [BitVec.toNat_append, ← Nat.shiftLeft_add_eq_or_of_lt y.isLt, Nat.shiftLeft_eq]

/-- `STATUS` as a number: its fields at their places (10_state.md R39). -/
theorem statusWord_toNat (s : State) :
    (statusWord s).toNat = (errNumber s.errCode).toNat * 256 + (flagHdrOk s).toNat * 16 +
      (flagUnderrun s).toNat * 8 + (flagErr s).toNat * 4 + (flagDone s).toNat * 2 + (flagBusy s).toNat := by
  simp only [statusWord, append_toNat, BitVec.toNat_ofBool, BitVec.toNat_ofNat, Nat.zero_mod]
  omega

theorem statusWord_div (s : State) : (statusWord s).toNat / 256 = (errNumber s.errCode).toNat := by
  have hHdrOk := (flagHdrOk s).toNat_le
  have hUnderrun := (flagUnderrun s).toNat_le
  have hErr := (flagErr s).toNat_le
  have hDone := (flagDone s).toNat_le
  have hBusy := (flagBusy s).toNat_le
  rw [statusWord_toNat]
  omega

/-- Settles O6: the `S` word's low field is the state's framer phase, and each of the three types has three values. -/
theorem reservedSelectorNeverOccurs : Obligations.ReservedSelectorNeverOccurs := by
  intro s
  refine ⟨?_, selector_decodes s _, ?_, ?_⟩
  · rw [selector_fph]
    exact framerCode_ne_three s.fph
  · cases s.phase <;> simp
  · rw [statusWord_div]
    exact errNumber_le_two s.errCode

end Sys2Proof.Proofs.Encoding

/-! PROOFS. The reference decoder (40_reference_functions.md R125 to R127): one equation per outcome of `decode` once
the header is there, and the number of bytes that packing gives. -/

namespace Sys2Proof.Proofs.Decode

open Sys2Proof.Machine

@[simp] theorem length_pack (p : List Bool) : (pack p).length = ceil8 p.length := by
  simp [pack]

theorem ceil8_eight_mul (n : Nat) : ceil8 (8 * n) = n := by
  unfold ceil8
  omega

theorem length_pack_take {p : List Bool} {n : Nat} (h : 8 * n ≤ p.length) : (pack (p.take (8 * n))).length = n := by
  rw [length_pack, List.length_take_of_le h, ceil8_eight_mul]

/-- A missing part of at most 7 bits lies in the last byte, so as many bytes are begun. -/
theorem ceil8_eq_iff_shortfall_le {avail n : Nat} (h : avail < 8 * n) : ceil8 avail = n ↔ 8 * n - avail ≤ 7 := by
  unfold ceil8
  omega

theorem ceil8_lt_iff_shortfall_gt {avail n : Nat} (h : avail < 8 * n) : ceil8 avail < n ↔ 7 < 8 * n - avail := by
  unfold ceil8
  omega

section Outcomes

variable {policy : Config.UnderrunPolicy} {s : List Bool}

/-- A stream with every declared bit decodes under either policy (R126). -/
theorem decodeFrame_of_enough (hheader : 32 ≤ s.length) (henough : 8 * declaredLength s ≤ s.length - 32) :
    decodeFrame policy s = .ok (pack ((s.drop 32).take (8 * declaredLength s))) false := by
  rw [decodeFrame.eq_def, if_neg hheader.not_gt, if_pos henough]

/-- Under `PAD` a short stream gives the bits that are there, the last byte filled with zeros (R126). -/
theorem decodeFrame_pad_of_short (hheader : 32 ≤ s.length) (hshort : s.length - 32 < 8 * declaredLength s) :
    decodeFrame .pad s = .ok (pack (s.drop 32)) true := by
  rw [decodeFrame.eq_def, if_neg hheader.not_gt, if_neg hshort.not_ge]

end Outcomes

/-- Settles O43: each clause is the outcome of `decode` in its case, and the number of bytes packed there. -/
theorem decodedLengthByPolicy : Obligations.DecodedLengthByPolicy := by
  rintro policy s length avail hheader rfl rfl
  constructor
  · intro henough
    exact ⟨_, decodeFrame_of_enough hheader henough, length_pack_take (by rwa [List.length_drop])⟩
  · rintro hshort rfl
    have hbytes : (pack (s.drop 32)).length = ceil8 (s.length - 32) := by rw [length_pack, List.length_drop]
    refine ⟨_, decodeFrame_pad_of_short hheader hshort, hbytes, fun hsmall => ?_, fun hlarge => ?_, fun hnone => ?_⟩
    · rw [hbytes]
      exact (ceil8_eq_iff_shortfall_le hshort).2 hsmall
    · rw [hbytes]
      exact (ceil8_lt_iff_shortfall_gt hshort).2 hlarge
    · rw [← List.length_eq_zero_iff, hbytes, hnone]
      rfl

end Sys2Proof.Proofs.Decode

/-! PROOFS. The host operations (41_host_operations.md): what a transaction decodes to by its three fields, what each
write and each read does, and that a transaction which selects no row has no effect (R149, R150). -/

namespace Sys2Proof.Proofs.HostOperations

open Sys2Proof.Machine

/-! ### The fields of a transaction and the operation they select -/

@[simp] theorem tWe_tWord (we : Bool) (addr : BitVec 8) (wdata : Word) : tWe (tWord we addr wdata) = we := by
  rw [tWe, Laws.tWord_getLsbD]
  simp

@[simp] theorem tAddr_tWord (we : Bool) (addr : BitVec 8) (wdata : Word) : tAddr (tWord we addr wdata) = addr := by
  apply BitVec.eq_of_getLsbD_eq
  intro i hi
  simp [tAddr, Laws.tWord_getLsbD, hi, show 32 + i < 40 by omega]

@[simp] theorem tWdata_tWord (we : Bool) (addr : BitVec 8) (wdata : Word) : tWdata (tWord we addr wdata) = wdata := by
  apply BitVec.eq_of_getLsbD_eq
  intro i hi
  simp [tWdata, Laws.tWord_getLsbD, hi]

theorem decodeT_write (addr : BitVec 8) (wdata : Word) : decodeT (tWord true addr wdata) = decodeWrite addr wdata := by
  simp [decodeT]

theorem decodeT_read (addr : BitVec 8) (wdata : Word) : decodeT (tWord false addr wdata) = decodeRead addr wdata := by
  simp [decodeT]

/-! A write to `CTRL` by its two command bits (30_encoding.md R98). -/

section Ctrl

variable {wdata : Word}

theorem decodeT_ctrl : decodeT (tWord true 0x00 wdata) = .ok (decodeCtrl wdata) :=
  decodeT_write 0x00 wdata

theorem decodeT_start (h0 : wdata.getLsbD 0 = true) : decodeT (tWord true 0x00 wdata) = .ok (.start wdata) := by
  rw [decodeT_ctrl, decodeCtrl, if_pos h0]

theorem decodeT_clear (h0 : wdata.getLsbD 0 = false) (h1 : wdata.getLsbD 1 = true) :
    decodeT (tWord true 0x00 wdata) = .ok (.clear wdata) := by
  rw [decodeT_ctrl, decodeCtrl, if_neg (Bool.eq_false_iff.mp h0), if_pos h1]

theorem decodeT_ctrlNop (h0 : wdata.getLsbD 0 = false) (h1 : wdata.getLsbD 1 = false) :
    decodeT (tWord true 0x00 wdata) = .ok (.ctrlNop wdata) := by
  rw [decodeT_ctrl, decodeCtrl, if_neg (Bool.eq_false_iff.mp h0), if_neg (Bool.eq_false_iff.mp h1)]

end Ctrl

/-! ### `START` and `CLEAR`: `operation_init()` and a new phase, outside `BUSY` -/

/-- The state a command leaves: `operation_init()` performed and `PHASE` at `p` (41_host_operations.md R146). -/
def initialised (p : Phase) (s : State) : State :=
  { operationInit s with phase := p }

theorem exec_start_busy (wdata : Word) {s : State} (h : s.phase = .busy) : exec (.start wdata) s = .next s :=
  congrArg Host.Outcome.next (if_pos h)

theorem exec_start (wdata : Word) {s : State} (h : s.phase ≠ .busy) :
    exec (.start wdata) s = .next (initialised .busy s) :=
  congrArg Host.Outcome.next (if_neg h)

theorem exec_clear_busy (wdata : Word) {s : State} (h : s.phase = .busy) : exec (.clear wdata) s = .next s :=
  congrArg Host.Outcome.next (if_pos h)

theorem exec_clear (wdata : Word) {s : State} (h : s.phase ≠ .busy) :
    exec (.clear wdata) s = .next (initialised .idle s) :=
  congrArg Host.Outcome.next (if_neg h)

/-- `STATUS` after a command depends on the new phase alone. -/
theorem statusWord_initialised (p : Phase) (s : State) :
    statusWord (initialised p s) = statusWord { State.reset with phase := p } := rfl

theorem payRead_initialised (p : Phase) (s : State) (a : Nat) : payRead (initialised p s) a = payRead s a := rfl

/-- The scan of a grid with no row or no column is exhausted at once (42_scanner.md R169). -/
theorem exhausted_initialised (p : Phase) {s : State} (h : s.gridH = 0 ∨ s.gridW = 0) :
    exhausted (initialised p s) = true := by
  obtain h | h := h <;> simp [exhausted, initialised, h]

theorem decodeS_selector_of_exhausted {s : State} (h : exhausted s = true) : decodeS (selector s) = .ok .finish := by
  rw [decodeS, selector_exh, if_pos h]

/-- In `IDLE` a state with the invariants is already what `CLEAR` makes of it (10_state.md R44). -/
theorem initialised_idle_of_coreInv {s : State} (hinv : Safety.CoreInv s) (hp : s.phase = .idle) :
    initialised .idle s = s := by
  rw [initialised, hinv.idle_reset hp, ← hp]

/-! ### Turns -/

theorem popTurn_eq {s : State} {u : Turn} {rest : List Turn} (h : s.turns = u :: rest) :
    popTurn s = { s with turns := rest } := by
  rw [popTurn, h, List.tail_cons]

theorem step_host_ok {s : State} {t : TWord} {rest : List Turn} {i : Instr} (h : s.turns = .host t :: rest)
    (hi : decodeT t = .ok i) : step s = exec i { s with turns := rest } := by
  rw [step_host s t rest h, hostTurn_ok _ t i hi, popTurn_eq h]

theorem step_host_error {s : State} {t : TWord} {rest : List Turn} {e : TReject} (h : s.turns = .host t :: rest)
    (he : decodeT t = .error e) : step s = .next (reservedAccess e { s with turns := rest }) := by
  rw [step_host s t rest h, hostTurn_error _ t e he, popTurn_eq h]

/-- A running operation whose scan is exhausted ends in the sequencer's next turn. -/
theorem step_finish {s : State} {rest : List Turn} (h : s.turns = .sequencer :: rest) (hp : s.phase = .busy)
    (hex : exhausted s = true) : step s = execFinish { s with turns := rest } := by
  rw [step_sequencer s rest h, sequencerTurn_busy (popTurn s) .finish hp (decodeS_selector_of_exhausted hex),
    popTurn_eq h]
  rfl

theorem execFinish_insufficientHeader {s : State} (h : s.hdrCnt.toNat < 32) :
    execFinish s = .next (raiseFraming .insufficientHeader s) :=
  congrArg Host.Outcome.next (if_pos h)

/-- After reset the grid is empty, so `START` and one sequencer step end the operation with too few header bits
(41_host_operations.md R144; 60_exceptions.md R222). -/
theorem start_then_finish_from_reset {wdata : Word} (h0 : wdata.getLsbD 0 = true) :
    step { State.reset with turns := [.host (tWord true 0x00 wdata), .sequencer] } =
        .next (initialised .busy { State.reset with turns := [.sequencer] }) ∧
      step (initialised .busy { State.reset with turns := [.sequencer] }) =
        .next (raiseFraming .insufficientHeader (initialised .busy State.reset)) := by
  constructor
  · rw [step_host_ok rfl (decodeT_start h0), exec_start wdata (show Phase.idle ≠ .busy by decide)]
  · rw [step_finish rfl rfl (exhausted_initialised .busy (.inl rfl)), execFinish_insufficientHeader (by decide)]
    rfl

/-- Settles O14. -/
theorem startBeginsOperation : Obligations.StartBeginsOperation := by
  intro wdata s
  refine ⟨decodeT_start, exec_start_busy wdata, fun hp => ?_, fun h0 => ?_⟩
  · exact ⟨_, exec_start wdata hp, rfl, statusWord_initialised .busy s, payRead_initialised .busy s,
      fun hgrid => decodeS_selector_of_exhausted (exhausted_initialised .busy hgrid)⟩
  · obtain ⟨hstart, hfinish⟩ := start_then_finish_from_reset h0
    exact ⟨_, _, hstart, rfl, rfl, rfl, rfl, hfinish, rfl, rfl⟩

/-- Settles O15. -/
theorem clearReturnsToIdle : Obligations.ClearReturnsToIdle := by
  intro wdata s
  refine ⟨decodeT_clear, exec_clear_busy wdata, fun hp => ?_, fun hinv hp => ?_⟩
  · exact ⟨_, exec_clear wdata hp, rfl, statusWord_initialised .idle s, payRead_initialised .idle s⟩
  · rw [exec_clear wdata (by simp [hp]), initialised_idle_of_coreInv hinv hp]

/-- Settles O16. -/
theorem controlNopChangesNothing : Obligations.ControlNopChangesNothing :=
  fun _ _ => ⟨decodeT_ctrlNop, rfl⟩

/-! ### Writes to the dimensions -/

theorem dimensionOf_eq (wdata : Word) : dimensionOf wdata = BitVec.ofNat 16 (wdata.toNat % 65536) := by
  apply BitVec.eq_of_toNat_eq
  simp [dimensionOf]

theorem exec_wrGridH (wdata : Word) (s : State) :
    exec (.wrGridH wdata) s = .next (if s.phase = .busy then s else { s with gridH := dimensionOf wdata }) := rfl

theorem exec_wrGridW (wdata : Word) (s : State) :
    exec (.wrGridW wdata) s = .next (if s.phase = .busy then s else { s with gridW := dimensionOf wdata }) := rfl

/-- Settles O17. -/
theorem dimensionWritesStoreLowHalf : Obligations.DimensionWritesStoreLowHalf := by
  intro wdata s
  refine ⟨decodeT_write 0x08 wdata, decodeT_write 0x0C wdata, ?_, ?_⟩
  · rw [exec_wrGridH, dimensionOf_eq]
  · rw [exec_wrGridW, dimensionOf_eq]

/-! ### Reads -/

theorem exec_rdGridH (wdata : Word) (s : State) :
    exec (.rdGridH wdata) s = .next (respond (BitVec.ofNat 32 s.gridH.toNat) s) := by
  rw [BitVec.ofNat_toNat]
  rfl

theorem exec_rdGridW (wdata : Word) (s : State) :
    exec (.rdGridW wdata) s = .next (respond (BitVec.ofNat 32 s.gridW.toNat) s) := by
  rw [BitVec.ofNat_toNat]
  rfl

theorem exec_rdStatus (wdata : Word) (s : State) : exec (.rdStatus wdata) s = .next (respond (statusWord s) s) := rfl

/-- Settles O18: the six addresses decode, and each answer is one `respond`, which changes nothing else. -/
theorem readsAnswerTheirRegister : Obligations.ReadsAnswerTheirRegister := fun wdata s =>
  ⟨decodeT_read 0x00 wdata, decodeT_read 0x08 wdata, decodeT_read 0x0C wdata, decodeT_read 0x10 wdata,
    decodeT_read 0x14 wdata, decodeT_read 0x18 wdata, rfl, exec_rdGridH wdata s, exec_rdGridW wdata s, rfl, rfl, rfl⟩

/-- What a flag contributes to `STATUS`: its bit's weight where it is set. -/
theorem toNat_decide_mul (p : Prop) [Decidable p] (weight : Nat) :
    (decide p).toNat * weight = if p then weight else 0 := by
  by_cases h : p <;> simp [h]

/-- `STATUS` as the sum of its fields, each flag by its definition (10_state.md R39), where `ERRCODE` is `code`. -/
theorem statusWord_eq_ofNat (s : State) {code : Nat} (hcode : (errNumber s.errCode).toNat = code) :
    statusWord s = BitVec.ofNat 32 (256 * code +
      (if s.hdrCnt.toNat = 32 then 16 else 0) + (if s.underrun then 8 else 0) +
      (if s.errCode = .none then 0 else 4) + (if s.phase = .done then 2 else 0) +
      (if s.phase = .busy then 1 else 0)) := by
  have hHdrOk : (flagHdrOk s).toNat * 16 = if s.hdrCnt.toNat = 32 then 16 else 0 := by
    rw [flagHdrOk, toNat_decide_mul]
    exact if_congr BitVec.toNat_inj.symm rfl rfl
  have hUnderrun : (flagUnderrun s).toNat * 8 = if s.underrun then 8 else 0 := by
    rw [← toNat_decide_mul, Bool.decide_eq_true, flagUnderrun]
  have hErr : (flagErr s).toNat * 4 = if s.errCode = .none then 0 else 4 := by
    rw [flagErr, toNat_decide_mul, ite_not]
  have hDone : (flagDone s).toNat * 2 = if s.phase = .done then 2 else 0 := toNat_decide_mul _ 2
  have hBusy : (flagBusy s).toNat = if s.phase = .busy then 1 else 0 := by
    rw [← toNat_decide_mul, Nat.mul_one, flagBusy]
  rw [← hHdrOk, ← hUnderrun, ← hErr, ← hDone, ← hBusy, ← hcode, Nat.mul_comm 256, ← Encoding.statusWord_toNat,
    BitVec.ofNat_toNat, BitVec.setWidth_eq]

/-- Settles O19. -/
theorem statusReadAssemblesFlags : Obligations.StatusReadAssemblesFlags := by
  intro wdata s
  refine ⟨decodeT_read 0x04 wdata, ?_⟩
  refine (exec_rdStatus wdata s).trans (congrArg (fun w => Host.Outcome.next (respond w s)) ?_)
  exact statusWord_eq_ofNat s (by cases s.errCode <;> rfl)

/-! ### Transactions that select no row (30_encoding.md R103) -/

/-- A write to a read-only or to no register is rejected with one of the two reasons that have no effect. -/
theorem decodeWrite_reserved {addr : BitVec 8} (wdata : Word) (h : addr ∉ [0x00#8, 0x08#8, 0x0C#8]) :
    ∃ e, decodeWrite addr wdata = .error e ∧ ∀ s, reservedAccess e s = s := by
  simp only [List.mem_cons, List.not_mem_nil, or_false, not_or] at h
  obtain ⟨hctrl, hgridH, hgridW⟩ := h
  rw [decodeWrite, if_neg hctrl, if_neg hgridH, if_neg hgridW]
  split
  · exact ⟨_, rfl, fun _ => rfl⟩
  · exact ⟨_, rfl, fun _ => rfl⟩

theorem decodeRead_unmapped {addr : BitVec 8} (wdata : Word)
    (h : addr ∉ [0x00#8, 0x04#8, 0x08#8, 0x0C#8, 0x10#8, 0x14#8, 0x18#8]) :
    decodeRead addr wdata = .error (.unmappedRead addr) := by
  simp only [List.mem_cons, List.not_mem_nil, or_false, not_or] at h
  simp [decodeRead, h]

/-- Settles O20. -/
theorem reservedTransactionsHaveNoEffect : Obligations.ReservedTransactionsHaveNoEffect := by
  intro s addr wdata rest
  constructor
  · intro hfree hturn
    obtain ⟨e, he, hnone⟩ := decodeWrite_reserved wdata hfree
    rw [step_host_error hturn ((decodeT_write addr wdata).trans he), hnone]
  · intro hfree hturn
    rw [step_host_error hturn ((decodeT_read addr wdata).trans (decodeRead_unmapped wdata hfree))]
    rfl

end Sys2Proof.Proofs.HostOperations

/-! PROOFS. The positions that yield no bit (42_scanner.md R166, 43_filter_extractor.md R182): what `advance()` leaves,
case by case, and what a state must show for its `S` word to select `VISIT_ABSENT` or `VISIT_SKIP`. -/

namespace Sys2Proof.Proofs.Scanner

open Sys2Proof.Machine Sys2Proof.Safety

/-! ### `advance()` -/

/-- The model's `advance()`, register by register, is the case distinction of 42_scanner.md R168. -/
theorem advance_eq_scanAdvanced (s : State) : advance s = scanAdvanced s := by
  by_cases hk : s.k.toNat < 63
  · simp [advance, scanAdvanced, nextK, nextBX, nextBY, hk]
  · by_cases hb : s.bX.toNat + 8 < s.gridW.toNat <;>
      simp [advance, scanAdvanced, nextK, nextBX, nextBY, moreBlocks, hk, hb]

theorem exec_visitAbsent (s : State) : exec .visitAbsent s = .next (scanAdvanced s) :=
  congrArg Host.Outcome.next (advance_eq_scanAdvanced s)

theorem exec_visitSkip (s : State) : exec .visitSkip s = .next (scanAdvanced s) :=
  congrArg Host.Outcome.next (advance_eq_scanAdvanced s)

/-! ### The scan position -/

theorem exhausted_eq_false_iff (s : State) :
    exhausted s = false ↔ s.gridW ≠ 0 ∧ s.bY.toNat < s.gridH.toNat := by
  simp [exhausted]

theorem present_eq_false_iff (s : State) :
    present s = false ↔ s.gridH.toNat ≤ scanRow s ∨ s.gridW.toNat ≤ scanCol s := by
  simp [present, imp_iff_not_or]

theorem zigzag_lt_eight : ∀ k < 64, (zigzag k).1 < 8 ∧ (zigzag k).2 < 8 := by decide

theorem scanRow_lt (s : State) : scanRow s < s.bY.toNat + 8 :=
  Nat.add_lt_add_left (zigzag_lt_eight s.k.toNat s.k.isLt).1 _

theorem scanCol_lt (s : State) : scanCol s < s.bX.toNat + 8 :=
  Nat.add_lt_add_left (zigzag_lt_eight s.k.toNat s.k.isLt).2 _

theorem coefAccess_of_absent {s : State} (h : present s = false) : coefAccess s = none := by
  simp [coefAccess, h]

theorem valueAt_eq_signedValue (s : State) : valueAt s = signedValue (scanWord s) := rfl

theorem usable_eq_false_iff (v : Int) : usable v = false ↔ v = -1 ∨ v = 0 ∨ v = 1 := by
  rw [usable, decide_eq_false_iff_not]
  omega

/-! ### When each operation is selected -/

theorem decodeS_visitAbsent_iff (w : SWord) :
    decodeS w = .ok .visitAbsent ↔ w.getLsbD 4 = false ∧ w.getLsbD 3 = false := by
  unfold decodeS
  split_ifs with hExh hPres <;> simp_all

theorem decodeS_visitSkip_iff (w : SWord) :
    decodeS w = .ok .visitSkip ↔ w.getLsbD 4 = false ∧ w.getLsbD 3 = true ∧ w.getLsbD 2 = false := by
  unfold decodeS
  split_ifs with hExh hPres hUse <;> simp_all

/-- `VISIT_ABSENT` is the step of a scan not yet exhausted at a position outside the grid (42_scanner.md R161). -/
theorem selector_visitAbsent_iff (s : State) :
    decodeS (selector s) = .ok .visitAbsent ↔ exhausted s = false ∧ present s = false := by
  rw [decodeS_visitAbsent_iff, selector_exh]
  exact and_congr_right fun hexh => by rw [selector_pres s hexh]

/-- `VISIT_SKIP` is the step of a scan not yet exhausted at an unusable coefficient (42_scanner.md R161). -/
theorem selector_visitSkip_iff (s : State) :
    decodeS (selector s) = .ok .visitSkip ↔
      exhausted s = false ∧ present s = true ∧ usable (signedValue (scanWord s)) = false := by
  rw [decodeS_visitSkip_iff, selector_exh]
  refine and_congr_right fun hexh => ?_
  rw [selector_pres s hexh]
  exact and_congr_right fun hpres => by rw [selector_use s hexh hpres]

/-- A block that starts inside the grid at a multiple of 8 but does not fit in it is cut off by a dimension that is
not a multiple of 8. -/
theorem mod_eight_ne_zero_of_cut {origin size pos : Nat} (haligned : origin % 8 = 0) (hinside : origin < size)
    (hpos : pos < origin + 8) (hout : size ≤ pos) : size % 8 ≠ 0 ∧ size < origin + 8 := by
  omega

/-- 42_scanner.md R166: with the invariants of 10_state.md R44, an absent position lies in a block that the grid cuts
off, below or to the right. -/
theorem block_cut_of_absent {s : State} (hinv : CoreInv s) (hbusy : s.phase = .busy) (hexh : exhausted s = false)
    (habsent : present s = false) :
    (s.gridH.toNat % 8 ≠ 0 ∧ s.gridH.toNat < s.bY.toNat + 8) ∨
      (s.gridW.toNat % 8 ≠ 0 ∧ s.gridW.toNat < s.bX.toNat + 8) := by
  obtain ⟨hwidth, hband⟩ := (exhausted_eq_false_iff s).mp hexh
  have hblock : s.bX.toNat < s.gridW.toNat :=
    (hinv.busy_block hbusy).resolve_right fun hempty => hwidth hempty.1
  exact ((present_eq_false_iff s).mp habsent).imp
    (mod_eight_ne_zero_of_cut hinv.bY_aligned hband (scanRow_lt s))
    (mod_eight_ne_zero_of_cut hinv.bX_aligned hblock (scanCol_lt s))

/-- Settles O23: what the `S` word of each operation tells of the state, and the block that is cut off. -/
theorem skippedPositionsOnlyAdvance : Obligations.SkippedPositionsOnlyAdvance := by
  refine ⟨fun w hexh hpres => (decodeS_visitAbsent_iff w).mpr ⟨hexh, hpres⟩,
    fun w hexh hpres huse => (decodeS_visitSkip_iff w).mpr ⟨hexh, hpres, huse⟩,
    fun s => ⟨exec_visitAbsent s, exec_visitSkip s, ?noRead, ?lastBand, ?unusable⟩⟩
  case noRead =>
    intro hsel
    exact coefAccess_of_absent ((selector_visitAbsent_iff s).mp hsel).2
  case lastBand =>
    intro hinv hbusy hsel
    obtain ⟨hexh, habsent⟩ := (selector_visitAbsent_iff s).mp hsel
    have hcut := block_cut_of_absent hinv hbusy hexh habsent
    exact ⟨hcut.imp And.left And.left, hcut.imp And.right And.right⟩
  case unusable =>
    intro hsel
    obtain ⟨-, -, hunusable⟩ := (selector_visitSkip_iff s).mp hsel
    rw [valueAt_eq_signedValue]
    exact (usable_eq_false_iff _).mp hunusable

end Sys2Proof.Proofs.Scanner

/-! PROOFS. The framer's operations (44_framer.md): the bit an operation receives and where it is pushed, what
`EMIT_HDR`, `EMIT_PAY`, `EMIT_DRAIN` and `FINISH` leave, and that the results then stay in `DONE` (R204). -/

namespace Sys2Proof.Proofs.Framer

open Sys2Proof.Machine Sys2Proof.Safety

/-! ### The bit received, and the registers it is pushed into -/

/-- Shifting a bit into a register is doubling and adding, at the register's width (30_encoding.md R91, R92). -/
theorem shiftLeft_one_or_ofBool {w : Nat} (x : BitVec w) (b : Bool) :
    (x <<< 1) ||| (BitVec.ofBool b).zeroExtend w = BitVec.ofNat w (2 * x.toNat + b.toNat) := by
  have hbit : b.toNat < 2 ^ 1 := b.toNat_lt
  have hpush : 2 * x.toNat + b.toNat = x.toNat <<< 1 ||| b.toNat := by
    rw [← Nat.shiftLeft_add_eq_or_of_lt hbit, Nat.shiftLeft_eq, pow_one, Nat.mul_comm]
  apply BitVec.eq_of_toNat_eq
  rw [hpush, BitVec.toNat_or, BitVec.toNat_ofNat, Nat.or_mod_two_pow, BitVec.toNat_shiftLeft, BitVec.toNat_setWidth,
    BitVec.toNat_ofBool]

/-- The bit a coefficient carries is the parity of its magnitude (43_filter_extractor.md R181). -/
theorem scanBit_toNat (s : State) : (scanBit s).toNat = (valueAt s).natAbs % 2 := by
  rw [scanBit, ← Scanner.valueAt_eq_signedValue, bitOf]
  rcases Nat.mod_two_eq_zero_or_one (valueAt s).natAbs with h | h <;> simp [h]

theorem pushedLen_scanBit (s : State) :
    pushedLen (scanBit s) s = BitVec.ofNat 32 (2 * s.len.toNat + (valueAt s).natAbs % 2) := by
  rw [pushedLen, shiftLeft_one_or_ofBool, scanBit_toNat]

theorem pushedByte_scanBit (s : State) :
    pushedByte (scanBit s) s = BitVec.ofNat 8 (2 * s.shreg.toNat + (valueAt s).natAbs % 2) := by
  rw [pushedByte, shiftLeft_one_or_ofBool, scanBit_toNat]

/-! ### `EMIT_DRAIN` -/

theorem exec_emitDrain (s : State) : exec .emitDrain s = .next (scanAdvanced (countBit s)) :=
  congrArg Host.Outcome.next (Scanner.advance_eq_scanAdvanced (countBit s))

/-- Settles O26. -/
theorem emitDrainCountsBit : Obligations.EmitDrainCountsBit :=
  ⟨rfl, exec_emitDrain⟩

/-! ### `EMIT_HDR` -/

/-- Eight times a 32-bit length fits the 35 bits of `REM` (44_framer.md R191). -/
theorem zeroExtend_shiftLeft_three (x : BitVec 32) :
    x.zeroExtend 35 <<< 3 = BitVec.ofNat 35 (8 * x.toNat) := by
  apply BitVec.eq_of_toNat_eq
  simp [Nat.shiftLeft_eq, Nat.mul_comm]

theorem completesHeader_iff (s : State) : completesHeader s = true ↔ s.hdrCnt.toNat = 31 := by
  rw [completesHeader, decide_eq_true_iff]
  bv_omega

/-- The 32nd header bit ends the header: `REM` is loaded and `FPH` leaves `HDR`. -/
theorem headerBit_last (b : Bool) {s : State} (h : s.hdrCnt.toNat = 31) :
    headerBit b s = { s with
      len := pushedLen b s, hdrCnt := 32, rem := BitVec.ofNat 35 (8 * (pushedLen b s).toNat),
      fph := if pushedLen b s = 0 then .drain else .pay } := by
  have hlast := (completesHeader_iff s).mpr h
  have hcount : s.hdrCnt + 1 = 32 := by simpa [completesHeader] using hlast
  rw [headerBit, if_pos hlast, if_pos hlast, hcount, zeroExtend_shiftLeft_three]

theorem headerBit_not_last (b : Bool) {s : State} (h : s.hdrCnt.toNat ≠ 31) :
    headerBit b s = { s with len := pushedLen b s, hdrCnt := s.hdrCnt + 1 } := by
  have hmore := mt (completesHeader_iff s).mp h
  rw [headerBit, if_neg hmore, if_neg hmore]

theorem exec_emitHdr (s : State) :
    exec .emitHdr s = .next (scanAdvanced (headerBit (scanBit s) (countBit s))) :=
  congrArg Host.Outcome.next (Scanner.advance_eq_scanAdvanced _)

theorem statusWord_hdrOk (s : State) : (statusWord s).getLsbD 4 = flagHdrOk s := by
  simp only [statusWord, BitVec.getLsbD_append]
  simp

/-- `STATUS.HDR_OK` after a header bit tells whether it was the 32nd. -/
theorem flagHdrOk_scanAdvanced_headerBit (b : Bool) (s : State) :
    flagHdrOk (scanAdvanced (headerBit b s)) = completesHeader s := by
  rw [← Scanner.advance_eq_scanAdvanced]
  rfl

/-- Settles O24: the header bit is pushed into `LEN`, and `HDRCNT` tells whether it is the last. -/
theorem emitHeaderShiftsLength : Obligations.EmitHeaderShiftsLength := by
  refine ⟨rfl, fun s newLen hlen => ⟨?next, ?hdrOk⟩⟩
  case next =>
    have hpush : pushedLen (scanBit s) (countBit s) = newLen := (pushedLen_scanBit s).trans hlen.symm
    rw [exec_emitHdr]
    split
    · next hlast => rw [headerBit_last _ (s := countBit s) hlast, hpush]; rfl
    · next hmore => rw [headerBit_not_last _ (s := countBit s) hmore, hpush]; rfl
  case hdrOk =>
    intro t ht
    obtain rfl := Host.Outcome.next.inj ((exec_emitHdr s).symm.trans ht)
    rw [statusWord_hdrOk, flagHdrOk_scanAdvanced_headerBit]
    exact completesHeader_iff (countBit s)

/-! ### `EMIT_PAY` -/

theorem exec_emitPay (s : State) : exec .emitPay s = .next (advance (payloadBit (scanBit s) (countBit s))) := rfl

theorem completesByte_iff (s : State) : completesByte s = true ↔ s.nb = 7 :=
  decide_eq_true_iff

/-- The eighth bit stores the byte at `PAY` address `OUTCNT` and starts the next one. -/
theorem payloadBit_eighth (b : Bool) {s : State} (h : s.nb = 7) :
    payloadBit b s = { s with
      rem := s.rem - 1, pay := payWrite s s.outCnt (pushedByte b s), outCnt := s.outCnt + 1, shreg := 0, nb := 0,
      fph := if s.rem = 1 then .drain else s.fph } := by
  have hfull := (completesByte_iff s).mpr h
  simp only [payloadBit, hfull, if_true, sub_eq_zero]

/-- A bit before the eighth stays in `SHREG`, and `PAY` is not written. -/
theorem payloadBit_not_eighth (b : Bool) {s : State} (h : s.nb ≠ 7) :
    payloadBit b s = { s with
      rem := s.rem - 1, shreg := pushedByte b s, nb := s.nb + 1,
      fph := if s.rem = 1 then .drain else s.fph } := by
  have hpart : completesByte s = false := decide_eq_false h
  simp only [payloadBit, hpart, Bool.false_eq_true, if_false, sub_eq_zero]

/-- `advance()` neither reads nor writes `PAY`. -/
theorem advance_with_pay (s : State) (p : List Host.Cell) :
    { advance s with pay := p } = scanAdvanced { s with pay := p } :=
  Scanner.advance_eq_scanAdvanced { s with pay := p }

/-- Settles O25: both cases of `NB` push the same byte, and only a full one is stored. -/
theorem emitPayloadAssemblesByte : Obligations.EmitPayloadAssemblesByte := by
  refine ⟨rfl, fun s sh hsh => ⟨_, exec_emitPay s, ?_⟩⟩
  have hpush : pushedByte (scanBit s) (countBit s) = sh := (pushedByte_scanBit s).trans hsh.symm
  rw [advance_with_pay]
  by_cases hnb : s.nb = 7
  · have hstored : (payloadBit (scanBit s) (countBit s)).pay = payWrite s s.outCnt sh := by
      rw [payloadBit_eighth _ (s := countBit s) hnb, hpush]
      rfl
    refine ⟨?_, fun _ => ⟨?_, fun a ha => ?_⟩, fun h => absurd hnb h⟩
    · rw [if_pos hnb, payloadBit_eighth _ (s := countBit s) hnb]
      rfl
    · exact payRead_payWrite_same s _ s.outCnt sh hstored
    · exact payRead_payWrite_other s _ s.outCnt sh a hstored ha
  · rw [if_neg hnb, payloadBit_not_eighth _ (s := countBit s) hnb, hpush]
    exact ⟨rfl, fun h => absurd h hnb, fun _ _ => rfl⟩

/-! ### `FINISH` -/

theorem decodeS_finish_iff (w : SWord) : decodeS w = .ok .finish ↔ w.getLsbD 4 = true := by
  unfold decodeS
  split_ifs <;> simp_all

theorem coefAccess_of_exhausted {s : State} (h : exhausted s = true) : coefAccess s = none := by
  simp [coefAccess, h]

/-- `FINISH` is the step of an exhausted scan, which reads no coefficient (42_scanner.md R161). -/
theorem coefAccess_of_finish {s : State} (h : decodeS (selector s) = .ok .finish) : coefAccess s = none := by
  rw [decodeS_finish_iff, selector_exh] at h
  exact coefAccess_of_exhausted h

/-! The four outcomes, each under the tests that lead to it (44_framer.md R199). -/

section Outcomes

variable {s : State}

theorem exec_finish_complete (hhdr : 32 ≤ s.hdrCnt.toNat) (hrem : s.rem = 0) :
    exec .finish s = .next (finishComplete s) :=
  congrArg Host.Outcome.next ((if_neg hhdr.not_gt).trans (if_pos hrem))

theorem exec_finish_pad (hhdr : 32 ≤ s.hdrCnt.toNat) (hrem : s.rem ≠ 0) (hpol : s.policy = .pad) :
    exec .finish s = .next (finishPad s) :=
  congrArg Host.Outcome.next (((if_neg hhdr.not_gt).trans (if_neg hrem)).trans (if_pos hpol))

theorem exec_finish_strict (hhdr : 32 ≤ s.hdrCnt.toNat) (hrem : s.rem ≠ 0) (hpol : s.policy = .strict) :
    exec .finish s = .next (raiseFraming .truncatedPayload s) :=
  congrArg Host.Outcome.next (((if_neg hhdr.not_gt).trans (if_neg hrem)).trans (if_neg (by simp [hpol])))

theorem finishPad_no_partial (h : s.nb = 0) :
    finishPad s = { s with underrun := true, outLen := s.outCnt, phase := .done } := by
  have hwhole : partialByte s = false := decide_eq_false (not_not_intro h)
  simp only [finishPad, hwhole, Bool.false_eq_true, if_false]

/-- A partial byte is stored at `PAY` address `OUTCNT`, padded with zeros. -/
theorem finishPad_partial (h : s.nb ≠ 0) :
    finishPad s = { s with
      underrun := true, pay := payWrite s s.outCnt (paddedByte s), outLen := s.outCnt + 1, outCnt := s.outCnt + 1,
      shreg := 0, nb := 0, phase := .done } := by
  have hpart : partialByte s = true := decide_eq_true h
  simp only [finishPad, hpart, if_true]

end Outcomes

theorem paddedByte_eq (s : State) : paddedByte s = BitVec.ofNat 8 (s.shreg.toNat * 2 ^ (8 - s.nb.toNat)) := by
  apply BitVec.eq_of_toNat_eq
  rw [paddedByte, BitVec.toNat_shiftLeft, Nat.shiftLeft_eq, BitVec.toNat_ofNat]

/-- Settles O27: one outcome per clause, and for the padded byte what `PAY` then reads. -/
theorem finishTakesFirstOutcome : Obligations.FinishTakesFirstOutcome := by
  refine ⟨fun w hexh => (decodeS_finish_iff w).mpr hexh, fun s =>
    ⟨coefAccess_of_finish, HostOperations.execFinish_insufficientHeader, exec_finish_complete, ?padWhole, ?padPartial,
      exec_finish_strict⟩⟩
  case padWhole =>
    intro hhdr hrem hpol hnb
    rw [exec_finish_pad hhdr hrem hpol, finishPad_no_partial hnb]
  case padPartial =>
    intro hhdr hrem hpol hnb
    refine ⟨_, exec_finish_pad hhdr hrem hpol, ?_⟩
    rw [← paddedByte_eq, finishPad_partial hnb]
    exact ⟨rfl, payRead_payWrite_same s _ s.outCnt _ rfl,
      fun a ha => payRead_payWrite_other s _ s.outCnt _ a rfl ha⟩

/-! ### The results in `DONE` -/

/-- Every outcome enters `DONE` (44_framer.md R204). -/
theorem exec_finish_done (s : State) : ∃ t, exec .finish s = .next t ∧ t.phase = .done := by
  by_cases hhdr : s.hdrCnt.toNat < 32
  · exact ⟨_, HostOperations.execFinish_insufficientHeader hhdr, rfl⟩
  have hheader : 32 ≤ s.hdrCnt.toNat := Nat.le_of_not_lt hhdr
  by_cases hrem : s.rem = 0
  · exact ⟨_, exec_finish_complete hheader hrem, rfl⟩
  cases hpol : s.policy with
  | pad => exact ⟨_, exec_finish_pad hheader hrem hpol, rfl⟩
  | strict => exact ⟨_, exec_finish_strict hheader hrem hpol, rfl⟩

theorem statusWord_done (s : State) : (statusWord s).getLsbD 1 = flagDone s := by
  simp only [statusWord, BitVec.getLsbD_append]
  simp

theorem flagDone_eq_true_iff (s : State) : flagDone s = true ↔ s.phase = .done :=
  decide_eq_true_iff

/-- A turn other than the sequencer's is the next one only when it stands at the head of the list. -/
theorem turns_of_nextTurn {s : State} {u : Turn} (hu : u ≠ .sequencer) (h : nextTurn s = u) :
    ∃ rest, s.turns = u :: rest := by
  cases hturns : s.turns with
  | nil => exact absurd (by simpa [nextTurn, hturns] using h.symm) hu
  | cons v rest =>
    obtain rfl : v = u := by simpa [nextTurn, hturns] using h
    exact ⟨rest, rfl⟩

theorem popTurn_of_no_turn {s : State} (h : s.turns = []) : popTurn s = s := by
  rw [popTurn, h, List.tail_nil, ← h]

/-- Outside `BUSY` the sequencer's turn is taken and has no effect (42_scanner.md R160). -/
theorem step_sequencer_rest {s : State} (hp : s.phase ≠ .busy) (hturn : nextTurn s = .sequencer) :
    step s = .next (popTurn s) := by
  cases h : s.turns with
  | nil =>
    rw [step_no_turn s h, sequencerTurn_rest s hp, popTurn_of_no_turn h]
  | cons u rest =>
    obtain rfl : u = .sequencer := by simpa [nextTurn, h] using hturn
    rw [step_sequencer s rest h, sequencerTurn_rest (popTurn s) hp]

/-- `t` shows the results that `s` shows: the phase, the result registers, `HDRCNT`, which `STATUS` reads, and `PAY`. -/
structure SameResults (s t : State) : Prop where
  phase : t.phase = s.phase
  len : t.len = s.len
  outLen : t.outLen = s.outLen
  bitCount : t.bitCount = s.bitCount
  errCode : t.errCode = s.errCode
  underrun : t.underrun = s.underrun
  hdrCnt : t.hdrCnt = s.hdrCnt
  pay : t.pay = s.pay

theorem SameResults.refl (s : State) : SameResults s s :=
  ⟨rfl, rfl, rfl, rfl, rfl, rfl, rfl, rfl⟩

theorem SameResults.of_popTurn (s : State) : SameResults s (popTurn s) := by
  constructor <;> rfl

theorem SameResults.of_respond (r : Word) (s : State) : SameResults s (respond r s) := by
  constructor <;> rfl

theorem SameResults.of_placeCoefficient (row col : BitVec 16) (w : CoefWord) (s : State) :
    SameResults s (placeCoefficient row col w s) := by
  constructor <;> rfl

theorem SameResults.of_gridH (v : BitVec 16) (s : State) : SameResults s { s with gridH := v } := by
  constructor <;> rfl

theorem SameResults.of_gridW (v : BitVec 16) (s : State) : SameResults s { s with gridW := v } := by
  constructor <;> rfl

theorem SameResults.of_reservedAccess (e : TReject) (s : State) : SameResults s (reservedAccess e s) := by
  rcases reservedAccess_cases e s with h | h
  · rw [h]
    exact .refl s
  · rw [h]
    exact .of_respond 0 s

theorem SameResults.trans {s t u : State} (h : SameResults s t) (h' : SameResults t u) : SameResults s u :=
  ⟨h'.phase.trans h.phase, h'.len.trans h.len, h'.outLen.trans h.outLen, h'.bitCount.trans h.bitCount,
    h'.errCode.trans h.errCode, h'.underrun.trans h.underrun, h'.hdrCnt.trans h.hdrCnt, h'.pay.trans h.pay⟩

theorem SameResults.statusWord_eq {s t : State} (h : SameResults s t) : statusWord t = statusWord s := by
  simp only [statusWord, flagBusy, flagDone, flagErr, flagUnderrun, flagHdrOk, h.phase, h.errCode, h.underrun, h.hdrCnt]

theorem SameResults.payRead_eq {s t : State} (h : SameResults s t) (a : Nat) : payRead t a = payRead s a := by
  rw [payRead, payRead, h.pay]

/-- A write to `CTRL` is no command exactly when both command bits are 0 (30_encoding.md R98). -/
theorem commands_write_ctrl_eq_false_iff (wdata : Word) :
    Commands (.host (tWord true 0x00 wdata)) = false ↔ wdata.getLsbD 0 = false ∧ wdata.getLsbD 1 = false := by
  simp [Commands]

/-- What a transaction without a command bit can decode to changes no result: a dimension, an answer, or nothing. -/
theorem sameResults_of_exec_host {u : TWord} {i : Instr} {s t : State} (hi : decodeT u = .ok i)
    (hcmd : Commands (.host u) = false) (h : exec i s = .next t) : SameResults s t := by
  obtain ⟨hwf, henc⟩ := Encoding.encode_of_decodeT hi
  cases i with
  | start wdata =>
    cases henc
    have h0 : wdata.getLsbD 0 = true := hwf
    cases h0.symm.trans ((commands_write_ctrl_eq_false_iff wdata).mp hcmd).1
  | clear wdata =>
    cases henc
    have h1 : wdata.getLsbD 1 = true := (Bool.and_eq_true_iff.mp hwf).2
    cases h1.symm.trans ((commands_write_ctrl_eq_false_iff wdata).mp hcmd).2
  | ctrlNop wdata =>
    cases h
    exact .refl s
  | wrGridH wdata =>
    rw [HostOperations.exec_wrGridH] at h
    cases h
    split
    · exact .refl s
    · exact .of_gridH _ s
  | wrGridW wdata =>
    rw [HostOperations.exec_wrGridW] at h
    cases h
    split
    · exact .refl s
    · exact .of_gridW _ s
  | rdCtrl _ | rdStatus _ | rdGridH _ | rdGridW _ | rdLen _ | rdOutLen _ | rdBitCount _ =>
    cases h
    exact .of_respond _ s
  | finish | visitAbsent | visitSkip | emitHdr | emitPay | emitDrain => cases henc

theorem sameResults_of_hostTurn {u : TWord} {s t : State} (hcmd : Commands (.host u) = false)
    (h : hostTurn u s = .next t) : SameResults s t := by
  cases hi : decodeT u with
  | ok i =>
    rw [hostTurn_ok s u i hi] at h
    exact sameResults_of_exec_host hi hcmd h
  | error e =>
    rw [hostTurn_error s u e hi] at h
    cases h
    exact .of_reservedAccess e s

/-- Outside `BUSY` no agent's turn changes the results but a command or hardware reset. -/
theorem sameResults_of_step {s t : State} (hp : s.phase ≠ .busy) (h : step s = .next t)
    (hcmd : Commands (nextTurn s) = false) (hreset : nextTurn s ≠ .hardReset) : SameResults s t := by
  cases hturn : nextTurn s with
  | sequencer =>
    cases (step_sequencer_rest hp hturn).symm.trans h
    exact .of_popTurn s
  | host u =>
    rw [hturn] at hcmd
    obtain ⟨rest, hturns⟩ := turns_of_nextTurn (by simp) hturn
    rw [step_host s u rest hturns] at h
    exact (SameResults.of_popTurn s).trans (sameResults_of_hostTurn hcmd h)
  | coefWrite row col w =>
    obtain ⟨rest, hturns⟩ := turns_of_nextTurn (by simp) hturn
    cases (step_coefWrite s row col w rest hturns).symm.trans h
    exact (SameResults.of_popTurn s).trans (.of_placeCoefficient row col w _)
  | hardReset => exact absurd hturn hreset

/-- Settles O32: each outcome of `FINISH` enters `DONE`, and there a step that is no command keeps the results. -/
theorem resultsStayUntilNextCommand : Obligations.ResultsStayUntilNextCommand := by
  refine ⟨fun s => ?finish, fun s t hdone hstep hcmd hreset => ?stay⟩
  case finish =>
    obtain ⟨t, ht, hdone⟩ := exec_finish_done s
    have hflag : (statusWord t).getLsbD 1 = true := by rw [statusWord_done, flagDone_eq_true_iff, hdone]
    exact ⟨t, ht, hdone, hflag, step_sequencer_rest (by simp [hdone])⟩
  case stay =>
    have hsame := sameResults_of_step (by simp [hdone]) hstep hcmd hreset
    exact ⟨hsame.phase.trans hdone, hsame.len, hsame.outLen, hsame.bitCount, hsame.errCode, hsame.underrun,
      hsame.statusWord_eq, hsame.payRead_eq⟩

end Sys2Proof.Proofs.Framer

/-! PROOFS. Reset and hazards (70_reset_and_hazards.md): what the host reads after reset (R250), and that a write made
while `PHASE = BUSY` is lost, at whichever address (R256). -/

namespace Sys2Proof.Proofs.ResetAndHazards

open Sys2Proof.Machine Sys2Proof.Safety HostOperations

/-! ### Writes made while `PHASE = BUSY` -/

/-- Each of the three operations a write to `CTRL` can select is lost. -/
theorem exec_decodeCtrl_busy (wdata : Word) {s : State} (h : s.phase = .busy) :
    exec (decodeCtrl wdata) s = .next s := by
  rw [decodeCtrl]
  split
  · exact exec_start_busy wdata h
  · split
    · exact exec_clear_busy wdata h
    · rfl

/-- A write to one of the three writable registers decodes, and its operation does nothing while `BUSY`. -/
theorem decodeWrite_writable {addr : BitVec 8} (wdata : Word) (h : addr ∈ [0x00#8, 0x08#8, 0x0C#8]) :
    ∃ i, decodeWrite addr wdata = .ok i ∧ ∀ s : State, s.phase = .busy → exec i s = .next s := by
  simp only [List.mem_cons, List.not_mem_nil, or_false] at h
  obtain rfl | rfl | rfl := h
  · exact ⟨decodeCtrl wdata, rfl, fun _ hbusy => exec_decodeCtrl_busy wdata hbusy⟩
  · exact ⟨.wrGridH wdata, rfl, fun s hbusy => by rw [exec_wrGridH, if_pos hbusy]⟩
  · exact ⟨.wrGridW wdata, rfl, fun s hbusy => by rw [exec_wrGridW, if_pos hbusy]⟩

/-- Settles O21: a writable register ignores the write because of the phase, any other address in every phase. -/
theorem busyLosesEveryWrite : Obligations.BusyLosesEveryWrite := by
  intro s t rest hturn hwe hbusy
  have hdec : decodeT t = decodeWrite (tAddr t) (tWdata t) := if_pos hwe
  by_cases hwritable : tAddr t ∈ [0x00#8, 0x08#8, 0x0C#8]
  · obtain ⟨i, hi, hlost⟩ := decodeWrite_writable (tWdata t) hwritable
    exact (step_host_ok hturn (hdec.trans hi)).trans (hlost _ hbusy)
  · obtain ⟨e, he, hnone⟩ := decodeWrite_reserved (tWdata t) hwritable
    rw [step_host_error hturn (hdec.trans he), hnone]

/-! ### Reset -/

theorem statusWord_reset : statusWord State.reset = 0 := by decide

/-- The register map is 0 at every address of a state whose `STATUS` and readable registers are 0. -/
theorem registerMap_eq_zero {s : State} (hstatus : statusWord s = 0) (hgridH : s.gridH = 0) (hgridW : s.gridW = 0)
    (hlen : s.len = 0) (houtLen : s.outLen = 0) (hbitCount : s.bitCount = 0) (addr : BitVec 8) :
    registerMap s addr = 0 := by
  rw [registerMap, hstatus, hgridH, hgridW, hlen, houtLen, hbitCount]
  simp

/-- Settles O1. -/
theorem resetRegisterValues : Obligations.ResetRegisterValues :=
  ⟨rfl, rfl, rfl, rfl, rfl, rfl, rfl, rfl, rfl, rfl, rfl, rfl, rfl, rfl, rfl, rfl, rfl,
    registerMap_eq_zero statusWord_reset rfl rfl rfl rfl rfl⟩

end Sys2Proof.Proofs.ResetAndHazards

/-! PROOFS. The agents' turns (00_scope.md R16): which operation a sequencer's turn performs (42_scanner.md R161), what
it makes of the bit it extracts, and the rules every step keeps: it has a next state, it changes `PHASE` only by a
command, by `FINISH` or by reset, it writes neither the policy nor the grid, and the scan depends on nothing else. -/

namespace Sys2Proof.Proofs.Turns

open Sys2Proof.Machine Sys2Proof.Safety

/-! ### The operation that the sequencer performs -/

/-- The operation of a usable coefficient, by the framer's phase (30_encoding.md R101). -/
def emitOperation : FramerPhase → Instr
  | .hdr => .emitHdr
  | .pay => .emitPay
  | .drain => .emitDrain

/-- The last three rows of 30_encoding.md R101: the framer phase selects the emit operation. -/
theorem decodeS_emit {w : SWord} {f : FramerPhase} (hexh : w.getLsbD 4 = false) (hpres : w.getLsbD 3 = true)
    (huse : w.getLsbD 2 = true) (hfph : w.extractLsb' 0 2 = framerCode f) : decodeS w = .ok (emitOperation f) := by
  simp only [decodeS, hexh, hpres, huse, hfph]
  cases f <;> rfl

theorem decodeS_selector_emit {s : State} (hexh : exhausted s = false) (hpres : present s = true)
    (huse : usable (signedValue (scanWord s)) = true) : decodeS (selector s) = .ok (emitOperation s.fph) :=
  decodeS_emit (by rw [selector_exh, hexh]) (by rw [selector_pres s hexh, hpres])
    (by rw [selector_use s hexh hpres, huse]) (selector_fph s)

/-- The exhaustion test on the values of the registers (42_scanner.md R169). -/
theorem exhausted_iff (s : State) : exhausted s = true ↔ s.gridW.toNat = 0 ∨ s.gridH.toNat ≤ s.bY.toNat := by
  have hzero : s.gridW = 0 ↔ s.gridW.toNat = 0 := by rw [← BitVec.toNat_inj]; rfl
  rw [exhausted, Bool.or_eq_true, decide_eq_true_iff, decide_eq_true_iff, hzero]

theorem usable_eq_false_iff_le (v : Int) : usable v = false ↔ v.natAbs ≤ 1 := by
  simp [usable]

/-- Settles O7: each test of the decision order is one field of the `S` word. -/
theorem selectorFollowsDecisionOrder : Obligations.SelectorFollowsDecisionOrder := by
  intro s
  split_ifs with hexh hpres huse
  · exact HostOperations.decodeS_selector_of_exhausted ((exhausted_iff s).mpr hexh)
  all_goals have hrun : exhausted s = false := Bool.eq_false_iff.mpr (mt (exhausted_iff s).mp hexh)
  · exact (Scanner.selector_visitAbsent_iff s).mpr ⟨hrun, (Scanner.present_eq_false_iff s).mpr hpres⟩
  all_goals have hin : present s = true := (Bool.not_eq_false _).mp (mt (Scanner.present_eq_false_iff s).mp hpres)
  · exact (Scanner.selector_visitSkip_iff s).mpr ⟨hrun, hin, (usable_eq_false_iff_le _).mpr huse⟩
  · rw [decodeS_selector_emit hrun hin ((Bool.not_eq_false _).mp (mt (usable_eq_false_iff_le _).mp huse))]
    cases s.fph <;> rfl

/-- The six sequencer operations are all that an `S` word can decode to. -/
theorem decodeS_mem {w : SWord} {i : Instr} (h : decodeS w = .ok i) :
    i ∈ [Instr.finish, .visitAbsent, .visitSkip, .emitHdr, .emitPay, .emitDrain] := by
  unfold decodeS at h
  split_ifs at h <;> cases h <;> decide

theorem selector_decodes_ok (s : State) : ∃ i, decodeS (selector s) = .ok i := by
  cases h : decodeS (selector s) with
  | ok i => exact ⟨i, rfl⟩
  | error e => exact absurd h (Encoding.selector_decodes s e)

/-- The sequencer's turn, listed or because no turn is left. -/
theorem step_of_nextTurn_sequencer {s : State} (h : nextTurn s = .sequencer) :
    step s = sequencerTurn (popTurn s) := by
  cases hturns : s.turns with
  | nil => rw [step_no_turn s hturns, Framer.popTurn_of_no_turn hturns]
  | cons u rest =>
    obtain rfl : u = .sequencer := by simpa [nextTurn, hturns] using h
    exact step_sequencer s rest hturns

/-- Settles O5. -/
theorem sequencerTurnRunsSelectedOperation : Obligations.SequencerTurnRunsSelectedOperation := by
  intro s hturns
  have hnext : nextTurn s = .sequencer := by
    obtain h | ⟨rest, h⟩ := hturns <;> simp [nextTurn, h]
  rw [step_of_nextTurn_sequencer hnext]
  refine ⟨fun hrest => sequencerTurn_rest (popTurn s) hrest, fun hbusy => ?_⟩
  obtain ⟨i, hi⟩ := selector_decodes_ok s
  exact ⟨i, decodeS_mem hi, hi, sequencerTurn_busy (popTurn s) i hbusy hi⟩

/-! ### A visit: what the sequencer makes of the position it is at -/

/-- The bit extracted at the scan position, if the position is in the grid and its coefficient is usable. -/
def visitBit (s : State) : Option Bool :=
  if present s then symbolBit (signedValue (scanWord s)) else none

/-- The framer's registers after one more bit, by the framer's phase (44_framer.md R191, R193, R195). -/
def framed (b : Bool) (s : State) : State :=
  match s.fph with
  | .hdr => headerBit b (countBit s)
  | .pay => payloadBit b (countBit s)
  | .drain => countBit s

/-- The framer's registers after a visit that extracts this bit or none. -/
def received : Option Bool → State → State
  | none, s => s
  | some b, s => framed b s

@[simp] theorem received_none (s : State) : received none s = s := rfl

@[simp] theorem received_some (b : Bool) (s : State) : received (some b) s = framed b s := rfl

theorem framed_hdr {b : Bool} {s : State} (h : s.fph = .hdr) : framed b s = headerBit b (countBit s) := by
  simp only [framed, h]

theorem framed_pay {b : Bool} {s : State} (h : s.fph = .pay) : framed b s = payloadBit b (countBit s) := by
  simp only [framed, h]

theorem framed_drain {b : Bool} {s : State} (h : s.fph = .drain) : framed b s = countBit s := by
  simp only [framed, h]

theorem exec_emitOperation (s : State) :
    exec (emitOperation s.fph) s = .next (advance (framed (scanBit s) s)) := by
  cases h : s.fph with
  | hdr => rw [framed_hdr h]; rfl
  | pay => rw [framed_pay h]; rfl
  | drain => rw [framed_drain h]; rfl

theorem sequencerTurn_finish {s : State} (hbusy : s.phase = .busy) (hexh : exhausted s = true) :
    sequencerTurn s = exec .finish s :=
  sequencerTurn_busy s .finish hbusy (HostOperations.decodeS_selector_of_exhausted hexh)

/-- Every turn of a running, unexhausted scan is a visit: the framer receives the position's bit, if it has one, and
the scan advances (42_scanner.md R161). -/
theorem sequencerTurn_visit {s : State} (hbusy : s.phase = .busy) (hexh : exhausted s = false) :
    sequencerTurn s = .next (advance (received (visitBit s) s)) := by
  cases hpres : present s with
  | false =>
    rw [sequencerTurn_busy s _ hbusy ((Scanner.selector_visitAbsent_iff s).mpr ⟨hexh, hpres⟩)]
    simp only [visitBit, hpres]
    rfl
  | true =>
    cases huse : usable (signedValue (scanWord s)) with
    | false =>
      rw [sequencerTurn_busy s _ hbusy ((Scanner.selector_visitSkip_iff s).mpr ⟨hexh, hpres, huse⟩)]
      simp only [visitBit, hpres, symbolBit, huse]
      rfl
    | true =>
      rw [sequencerTurn_busy s _ hbusy (decodeS_selector_emit hexh hpres huse), exec_emitOperation]
      simp only [visitBit, hpres, symbolBit, huse]
      rfl

/-- What a visit leaves alone: the phase, the scan registers, the dimensions, the grid, the policy, the turns and the
answers. -/
structure SameScan (s t : State) : Prop where
  phase : t.phase = s.phase
  bY : t.bY = s.bY
  bX : t.bX = s.bX
  k : t.k = s.k
  gridH : t.gridH = s.gridH
  gridW : t.gridW = s.gridW
  coef : t.coef = s.coef
  policy : t.policy = s.policy
  turns : t.turns = s.turns

/-- The framer never touches what the scan depends on (43_filter_extractor.md R186). -/
theorem received_sameScan (o : Option Bool) (s : State) : SameScan s (received o s) := by
  cases o with
  | none => constructor <;> rfl
  | some b =>
    rw [received_some]
    cases h : s.fph with
    | hdr => rw [framed_hdr h]; constructor <;> rfl
    | pay => rw [framed_pay h]; constructor <;> rfl
    | drain => rw [framed_drain h]; constructor <;> rfl

/-! ### Every state has a next state -/

theorem exec_next (i : Instr) (s : State) : ∃ t, exec i s = .next t := by
  cases i <;> exact ⟨_, rfl⟩

theorem sequencerTurn_next (s : State) : ∃ t, sequencerTurn s = .next t := by
  by_cases hbusy : s.phase = .busy
  · obtain ⟨i, hi⟩ := selector_decodes_ok s
    rw [sequencerTurn_busy s i hbusy hi]
    exact exec_next i s
  · exact ⟨s, sequencerTurn_rest s hbusy⟩

theorem hostTurn_next (u : TWord) (s : State) : ∃ t, hostTurn u s = .next t := by
  cases hi : decodeT u with
  | ok i =>
    rw [hostTurn_ok s u i hi]
    exact exec_next i s
  | error e => exact ⟨_, hostTurn_error s u e hi⟩

/-- Settles O30: no agent's turn is refused. -/
theorem everyStateHasNextState : Obligations.EveryStateHasNextState := by
  intro s
  obtain ⟨-, h⟩ | ⟨_, -, h⟩ | ⟨u, _, -, h⟩ | ⟨_, _, _, _, -, h⟩ | ⟨_, -, h⟩ := step_cases s
  · exact h ▸ sequencerTurn_next s
  · exact h ▸ sequencerTurn_next (popTurn s)
  · exact h ▸ hostTurn_next u (popTurn s)
  · exact ⟨_, h⟩
  · exact ⟨_, h⟩

/-! ### The turn that a step takes -/

theorem step_of_nextTurn_host {s : State} {u : TWord} (h : nextTurn s = .host u) :
    step s = hostTurn u (popTurn s) := by
  obtain ⟨rest, hturns⟩ := Framer.turns_of_nextTurn (by simp) h
  exact step_host s u rest hturns

theorem step_of_nextTurn_coefWrite {s : State} {row col : BitVec 16} {w : CoefWord}
    (h : nextTurn s = .coefWrite row col w) : step s = .next (placeCoefficient row col w (popTurn s)) := by
  obtain ⟨rest, hturns⟩ := Framer.turns_of_nextTurn (by simp) h
  exact step_coefWrite s row col w rest hturns

theorem step_of_nextTurn_hardReset {s : State} (h : nextTurn s = .hardReset) :
    step s = .next (hardwareReset (popTurn s)) := by
  obtain ⟨rest, hturns⟩ := Framer.turns_of_nextTurn (by simp) h
  exact step_hardReset s rest hturns

/-- Settles O2. -/
theorem hardwareResetKeepsMemories : Obligations.HardwareResetKeepsMemories := by
  intro s rest hturns
  rw [step_hardReset s rest hturns, HostOperations.popTurn_eq hturns]
  rfl

/-- Settles O4. -/
theorem hostTurnRunsDecodedOperation : Obligations.HostTurnRunsDecodedOperation :=
  fun _ _ _ _ hturns hi => HostOperations.step_host_ok hturns hi

/-! ### `COEF` addresses -/

theorem coefAddress_toNat_append (row col : BitVec 16) : coefAddress row.toNat col.toNat = row ++ col := by
  rw [coefAddress, BitVec.ofNat_toNat, BitVec.ofNat_toNat, BitVec.setWidth_eq, BitVec.setWidth_eq]

theorem coefAddress_toNat {row col : Nat} (hrow : row < 65536) (hcol : col < 65536) :
    (coefAddress row col).toNat = 65536 * row + col := by
  rw [coefAddress, Encoding.append_toNat, BitVec.toNat_ofNat, BitVec.toNat_ofNat, Nat.mod_eq_of_lt hrow,
    Nat.mod_eq_of_lt hcol]
  omega

theorem append_toNat_injective {r c row col : BitVec 16} (h : (r ++ c).toNat = (row ++ col).toNat) :
    (r, c) = (row, col) := by
  rw [Encoding.append_toNat, Encoding.append_toNat] at h
  have hc := c.isLt
  have hcol := col.isLt
  rw [Prod.mk.injEq, ← BitVec.toNat_inj, ← BitVec.toNat_inj]
  omega

/-- Settles O3: the word is written at `row ‖ col`, and other positions have other addresses. -/
theorem platformPlacesOneWord : Obligations.PlatformPlacesOneWord := by
  intro s row col w rest hturns
  refine ⟨_, step_coefWrite s row col w rest hturns, ?_, ?_, fun r c hne => ?_⟩
  · rw [HostOperations.popTurn_eq hturns]
    rfl
  · rw [coefRead, coefAddress_toNat_append, placeCoefficient_coef, readCell_writeCell_same, Option.getD_some]
  · rw [coefRead, coefRead, coefAddress_toNat_append, placeCoefficient_coef, popTurn_coef,
      readCell_writeCell_other _ w (mt append_toNat_injective hne)]

theorem present_iff (s : State) :
    present s = true ↔ scanRow s < s.gridH.toNat ∧ scanCol s < s.gridW.toNat := by
  simp [present]

/-- Settles O29: a coefficient is read only where it is present, and a present position fits the address. -/
theorem coefficientReadsStayInGrid : Obligations.CoefficientReadsStayInGrid := by
  intro s a haccess
  rw [coefAccess, Option.ite_none_right_eq_some] at haccess
  obtain ⟨htest, ha⟩ := haccess
  obtain ⟨hrow, hcol⟩ := (present_iff s).mp (Bool.and_eq_true_iff.mp htest).2
  have hh := s.gridH.isLt
  have hw := s.gridW.isLt
  cases ha
  exact ⟨scanRow s, scanCol s, hrow, hcol, coefAddress_toNat (by omega) (by omega)⟩

/-! ### What operations do to the spaces, the policy and the turns -/

/-- What no operation writes: the grid, the policy and the turns to come. -/
structure KeepsInputs (s t : State) : Prop where
  coef : t.coef = s.coef
  policy : t.policy = s.policy
  turns : t.turns = s.turns

/-- What an operation can have done to `PAY`: nothing, or a byte at `OUTCNT` in `EMIT_PAY` on the eighth bit of a byte
or in `FINISH` with a partial byte under `PAD` (20_memory.md R64). -/
def PayEffect (i : Instr) (s t : State) : Prop :=
  t.pay = s.pay ∨
    ((i = .emitPay ∧ s.nb = 7) ∨ (i = .finish ∧ 32 ≤ s.hdrCnt.toNat ∧ s.rem ≠ 0 ∧ s.policy = .pad ∧ s.nb ≠ 0)) ∧
      ∃ b, t.pay = payWrite s s.outCnt b

theorem emitPay_payEffect (b : Bool) (s : State) : PayEffect .emitPay s (advance (payloadBit b (countBit s))) := by
  by_cases hnb : s.nb = 7
  · rw [Framer.payloadBit_eighth b (s := countBit s) hnb]
    exact .inr ⟨.inl ⟨rfl, hnb⟩, _, rfl⟩
  · rw [Framer.payloadBit_not_eighth b (s := countBit s) hnb]
    exact .inl rfl

/-- The four outcomes of `FINISH`, with the tests that lead to each (44_framer.md R199). -/
theorem finish_cases (s : State) :
    (s.hdrCnt.toNat < 32 ∧ exec .finish s = .next (raiseFraming .insufficientHeader s)) ∨
    (32 ≤ s.hdrCnt.toNat ∧ s.rem = 0 ∧ exec .finish s = .next (finishComplete s)) ∨
    (32 ≤ s.hdrCnt.toNat ∧ s.rem ≠ 0 ∧ s.policy = .pad ∧ exec .finish s = .next (finishPad s)) ∨
    (32 ≤ s.hdrCnt.toNat ∧ s.rem ≠ 0 ∧ s.policy = .strict ∧
      exec .finish s = .next (raiseFraming .truncatedPayload s)) := by
  rcases Nat.lt_or_ge s.hdrCnt.toNat 32 with hhdr | hhdr
  · exact .inl ⟨hhdr, HostOperations.execFinish_insufficientHeader hhdr⟩
  · refine .inr ?_
    by_cases hrem : s.rem = 0
    · exact .inl ⟨hhdr, hrem, Framer.exec_finish_complete hhdr hrem⟩
    · cases hpol : s.policy with
      | pad => exact .inr (.inl ⟨hhdr, hrem, rfl, Framer.exec_finish_pad hhdr hrem hpol⟩)
      | strict => exact .inr (.inr ⟨hhdr, hrem, rfl, Framer.exec_finish_strict hhdr hrem hpol⟩)

theorem finish_effect {s t : State} (h : exec .finish s = .next t) : KeepsInputs s t ∧ PayEffect .finish s t := by
  obtain ⟨-, ht⟩ | ⟨-, -, ht⟩ | ⟨hhdr, hrem, hpol, ht⟩ | ⟨-, -, -, ht⟩ := finish_cases s <;> cases ht.symm.trans h
  · exact ⟨⟨rfl, rfl, rfl⟩, .inl rfl⟩
  · exact ⟨⟨rfl, rfl, rfl⟩, .inl rfl⟩
  · refine ⟨⟨rfl, rfl, rfl⟩, ?_⟩
    by_cases hnb : s.nb = 0
    · rw [Framer.finishPad_no_partial hnb]
      exact .inl rfl
    · rw [Framer.finishPad_partial hnb]
      exact .inr ⟨.inr ⟨rfl, hhdr, hrem, hpol, hnb⟩, _, rfl⟩
  · exact ⟨⟨rfl, rfl, rfl⟩, .inl rfl⟩

/-- What every operation leaves of the inputs and of `PAY`. -/
theorem exec_effect {i : Instr} {s t : State} (h : exec i s = .next t) : KeepsInputs s t ∧ PayEffect i s t := by
  cases i with
  | start wdata | clear wdata | wrGridH wdata | wrGridW wdata =>
    cases h
    split <;> exact ⟨⟨rfl, rfl, rfl⟩, .inl rfl⟩
  | ctrlNop _ | rdCtrl _ | rdStatus _ | rdGridH _ | rdGridW _ | rdLen _ | rdOutLen _ | rdBitCount _ | visitAbsent
  | visitSkip | emitHdr | emitDrain =>
    cases h
    exact ⟨⟨rfl, rfl, rfl⟩, .inl rfl⟩
  | emitPay =>
    cases h
    exact ⟨⟨rfl, rfl, rfl⟩, emitPay_payEffect _ s⟩
  | finish => exact finish_effect h

/-- Settles O28. -/
theorem operationsReachTheirSpaces : Obligations.OperationsReachTheirSpaces := by
  intro i s t h
  obtain ⟨hkeep, hpay⟩ := exec_effect h
  refine ⟨fun a => by rw [coefRead, coefRead, hkeep.coef], fun a ha => ?_, fun hemit hfinish a => ?_⟩
  · obtain hsame | ⟨-, b, hwritten⟩ := hpay
    · rw [payRead, payRead, hsame]
    · exact payRead_payWrite_other s t s.outCnt b a hwritten ha
  · obtain hsame | ⟨hcase, -⟩ := hpay
    · rw [payRead, payRead, hsame]
    · exact absurd hcase (not_or.mpr ⟨hemit, hfinish⟩)

theorem reservedAccess_keepsInputs (e : TReject) (s : State) : KeepsInputs s (reservedAccess e s) := by
  obtain h | h := reservedAccess_cases e s <;> rw [h] <;> exact ⟨rfl, rfl, rfl⟩

theorem hostTurn_keepsInputs {u : TWord} {s t : State} (h : hostTurn u s = .next t) : KeepsInputs s t := by
  cases hi : decodeT u with
  | ok i => exact (exec_effect ((hostTurn_ok s u i hi).symm.trans h)).1
  | error e =>
    cases (hostTurn_error s u e hi).symm.trans h
    exact reservedAccess_keepsInputs e s

theorem sequencerTurn_keepsInputs {s t : State} (h : sequencerTurn s = .next t) : KeepsInputs s t := by
  by_cases hbusy : s.phase = .busy
  · obtain ⟨i, hi⟩ := selector_decodes_ok s
    exact (exec_effect ((sequencerTurn_busy s i hbusy hi).symm.trans h)).1
  · cases (sequencerTurn_rest s hbusy).symm.trans h
    exact ⟨rfl, rfl, rfl⟩

/-- Settles O33: operations keep the grid and the policy, and of the other turns only the platform's writes `COEF`. -/
theorem policyAndGridNotWrittenByCore : Obligations.PolicyAndGridNotWrittenByCore := by
  intro s t h
  cases hturn : nextTurn s with
  | sequencer =>
    rw [step_of_nextTurn_sequencer hturn] at h
    exact ⟨(sequencerTurn_keepsInputs h).policy, fun _ => (sequencerTurn_keepsInputs h).coef⟩
  | host u =>
    rw [step_of_nextTurn_host hturn] at h
    exact ⟨(hostTurn_keepsInputs h).policy, fun _ => (hostTurn_keepsInputs h).coef⟩
  | coefWrite row col w =>
    cases (step_of_nextTurn_coefWrite hturn).symm.trans h
    exact ⟨rfl, fun hother => absurd rfl (hother row col w)⟩
  | hardReset =>
    cases (step_of_nextTurn_hardReset hturn).symm.trans h
    exact ⟨rfl, fun _ => rfl⟩

/-! ### `PHASE` -/

theorem sequencerTurn_phase {s t : State} (h : sequencerTurn s = .next t) (hchange : t.phase ≠ s.phase) :
    s.phase = .busy ∧ t.phase = .done ∧ decodeS (selector s) = .ok .finish := by
  by_cases hbusy : s.phase = .busy
  · cases hexh : exhausted s with
    | false =>
      cases (sequencerTurn_visit hbusy hexh).symm.trans h
      exact absurd (received_sameScan (visitBit s) s).phase hchange
    | true =>
      obtain ⟨u, hu, hdone⟩ := Framer.exec_finish_done s
      cases (hu.symm.trans (sequencerTurn_finish hbusy hexh).symm).trans h
      exact ⟨hbusy, hdone, HostOperations.decodeS_selector_of_exhausted hexh⟩
  · cases (sequencerTurn_rest s hbusy).symm.trans h
    exact absurd rfl hchange

/-- Of the operations a transaction can select, only `START` and `CLEAR` change `PHASE`. -/
theorem exec_host_phase {u : TWord} {i : Instr} {s t : State} (hi : decodeT u = .ok i) (h : exec i s = .next t)
    (hchange : t.phase ≠ s.phase) :
    (s.phase ≠ .busy ∧ t.phase = .busy ∧ ∃ wdata, i = .start wdata) ∨
      (s.phase = .done ∧ t.phase = .idle ∧ ∃ wdata, i = .clear wdata) := by
  cases i with
  | start wdata =>
    by_cases hbusy : s.phase = .busy
    · cases (HostOperations.exec_start_busy wdata hbusy).symm.trans h
      exact absurd rfl hchange
    · cases (HostOperations.exec_start wdata hbusy).symm.trans h
      exact .inl ⟨hbusy, rfl, wdata, rfl⟩
  | clear wdata =>
    by_cases hbusy : s.phase = .busy
    · cases (HostOperations.exec_clear_busy wdata hbusy).symm.trans h
      exact absurd rfl hchange
    · cases (HostOperations.exec_clear wdata hbusy).symm.trans h
      refine .inr ⟨?_, rfl, wdata, rfl⟩
      cases hp : s.phase with
      | idle => exact absurd hp.symm hchange
      | busy => exact absurd hp hbusy
      | done => rfl
  | ctrlNop _ | rdCtrl _ | rdStatus _ | rdGridH _ | rdGridW _ | rdLen _ | rdOutLen _ | rdBitCount _ =>
    cases h
    exact absurd rfl hchange
  | wrGridH _ | wrGridW _ =>
    cases h
    exact absurd (by split <;> rfl) hchange
  | finish | visitAbsent | visitSkip | emitHdr | emitPay | emitDrain => cases (Encoding.encode_of_decodeT hi).2

theorem reservedAccess_phase (e : TReject) (s : State) : (reservedAccess e s).phase = s.phase := by
  obtain h | h := reservedAccess_cases e s <;> rw [h]
  rfl

/-- Settles O31. -/
theorem phaseTransitionsOnlyByCommands : Obligations.PhaseTransitionsOnlyByCommands := by
  intro s t h hreset hchange
  cases hturn : nextTurn s with
  | sequencer =>
    rw [step_of_nextTurn_sequencer hturn] at h
    obtain ⟨hbusy, hdone, hfinish⟩ := sequencerTurn_phase h hchange
    exact .inr (.inl ⟨hbusy, hdone, rfl, hfinish⟩)
  | host u =>
    rw [step_of_nextTurn_host hturn] at h
    cases hi : decodeT u with
    | ok i =>
      obtain ⟨hrest, hbusy, wdata, rfl⟩ | ⟨hdone, hidle, wdata, rfl⟩ :=
        exec_host_phase hi ((hostTurn_ok _ u i hi).symm.trans h) hchange
      · exact .inl ⟨hrest, hbusy, u, wdata, rfl, hi⟩
      · exact .inr (.inr ⟨hdone, hidle, u, wdata, rfl, hi⟩)
    | error e =>
      cases (hostTurn_error _ u e hi).symm.trans h
      exact absurd (reservedAccess_phase e _) hchange
  | coefWrite row col w =>
    cases (step_of_nextTurn_coefWrite hturn).symm.trans h
    exact absurd rfl hchange
  | hardReset => exact absurd hturn hreset

/-! ### What the scan depends on -/

/-- Agreement on the scan as the equality of one tuple. -/
theorem scanAgree_iff (s t : State) :
    ScanAgree s t ↔ (s.phase, s.bY, s.bX, s.k, s.gridH, s.gridW, s.turns) =
      (t.phase, t.bY, t.bX, t.k, t.gridH, t.gridW, t.turns) := by
  simp only [ScanAgree, Prod.mk.injEq]

theorem scanAgree_symm {s t : State} (h : ScanAgree s t) : ScanAgree t s :=
  (scanAgree_iff t s).mpr ((scanAgree_iff s t).mp h).symm

theorem scanAgree_trans {s t u : State} (h : ScanAgree s t) (h' : ScanAgree t u) : ScanAgree s u :=
  (scanAgree_iff s u).mpr (((scanAgree_iff s t).mp h).trans ((scanAgree_iff t u).mp h'))

/-- Two states that agree on the scan with states that agree on it do so themselves. -/
theorem scanAgree_of_both {s s' t t' : State} (ht : ScanAgree t s) (h : ScanAgree s s') (ht' : ScanAgree t' s') :
    ScanAgree t t' :=
  scanAgree_trans ht (scanAgree_trans h (scanAgree_symm ht'))

theorem scanAgree_popTurn {s s' : State} (h : ScanAgree s s') : ScanAgree (popTurn s) (popTurn s') := by
  obtain ⟨hphase, hbY, hbX, hk, hgridH, hgridW, hturns⟩ := h
  exact ⟨hphase, hbY, hbX, hk, hgridH, hgridW, congrArg List.tail hturns⟩

theorem scanAgree_withPhase (p : Phase) {s s' : State} (h : ScanAgree s s') :
    ScanAgree { s with phase := p } { s' with phase := p } := by
  obtain ⟨-, hrest⟩ := h
  exact ⟨rfl, hrest⟩

/-- `advance()` is computed from the scan registers and `GRID_W` alone (42_scanner.md R168, R171). -/
theorem scanAgree_advance {s s' : State} (h : ScanAgree s s') : ScanAgree (advance s) (advance s') := by
  obtain ⟨hphase, hbY, hbX, hk, hgridH, hgridW, hturns⟩ := h
  simp [ScanAgree, nextK, nextBX, nextBY, moreBlocks, hphase, hbY, hbX, hk, hgridH, hgridW, hturns]

theorem scanAgree_received (o : Option Bool) (s : State) : ScanAgree (received o s) s := by
  have h := received_sameScan o s
  exact ⟨h.phase, h.bY, h.bX, h.k, h.gridH, h.gridW, h.turns⟩

/-- Whatever its outcome, `FINISH` leaves the scan registers and enters `DONE`. -/
theorem scanAgree_finish {s t : State} (h : exec .finish s = .next t) : ScanAgree t { s with phase := .done } := by
  obtain ⟨-, ht⟩ | ⟨-, -, ht⟩ | ⟨-, -, -, ht⟩ | ⟨-, -, -, ht⟩ := finish_cases s <;> cases ht.symm.trans h <;>
    exact ⟨rfl, rfl, rfl, rfl, rfl, rfl, rfl⟩

theorem exhausted_congr {s s' : State} (h : ScanAgree s s') : exhausted s = exhausted s' := by
  obtain ⟨-, hbY, -, -, hgridH, hgridW, -⟩ := h
  rw [exhausted, exhausted, hbY, hgridH, hgridW]

theorem scanPosition_congr {s s' : State} (h : ScanAgree s s') : scanRow s = scanRow s' ∧ scanCol s = scanCol s' := by
  obtain ⟨-, hbY, hbX, hk, -, -, -⟩ := h
  rw [scanRow, scanRow, scanCol, scanCol, hbY, hbX, hk]
  exact ⟨rfl, rfl⟩

theorem coefAccess_congr {s s' : State} (h : ScanAgree s s') : coefAccess s = coefAccess s' := by
  obtain ⟨hrow, hcol⟩ := scanPosition_congr h
  have hexh := exhausted_congr h
  obtain ⟨hphase, -, -, -, hgridH, hgridW, -⟩ := h
  rw [coefAccess, coefAccess, present, present, hrow, hcol, hexh, hphase, hgridH, hgridW]

/-- The sequencer's turns of two states that agree on the scan: both rest, both finish, or both visit, the one bit
that the framers may receive notwithstanding. -/
theorem scanAgree_sequencerTurn {s s' t t' : State} (hagree : ScanAgree s s') (h : sequencerTurn s = .next t)
    (h' : sequencerTurn s' = .next t') : ScanAgree t t' := by
  have hphase : s.phase = s'.phase := hagree.1
  by_cases hbusy : s.phase = .busy
  · have hbusy' : s'.phase = .busy := hphase.symm.trans hbusy
    cases hexh : exhausted s with
    | false =>
      have hexh' : exhausted s' = false := (exhausted_congr hagree).symm.trans hexh
      cases (sequencerTurn_visit hbusy hexh).symm.trans h
      cases (sequencerTurn_visit hbusy' hexh').symm.trans h'
      exact scanAgree_advance (scanAgree_of_both (scanAgree_received _ s) hagree (scanAgree_received _ s'))
    | true =>
      have hexh' : exhausted s' = true := (exhausted_congr hagree).symm.trans hexh
      rw [sequencerTurn_finish hbusy hexh] at h
      rw [sequencerTurn_finish hbusy' hexh'] at h'
      exact scanAgree_of_both (scanAgree_finish h) (scanAgree_withPhase .done hagree) (scanAgree_finish h')
  · cases (sequencerTurn_rest s hbusy).symm.trans h
    cases (sequencerTurn_rest s' (hphase ▸ hbusy)).symm.trans h'
    exact hagree

/-- The host's operations read of the state no more than `PHASE` where they write what the scan depends on. -/
theorem scanAgree_exec_host {u : TWord} {i : Instr} {s s' t t' : State} (hi : decodeT u = .ok i)
    (hagree : ScanAgree s s') (h : exec i s = .next t) (h' : exec i s' = .next t') : ScanAgree t t' := by
  obtain ⟨hphase, hbY, hbX, hk, hgridH, hgridW, hturns⟩ := hagree
  cases i with
  | start _ | clear _ =>
    cases h
    cases h'
    rw [hphase]
    split
    · exact ⟨hphase, hbY, hbX, hk, hgridH, hgridW, hturns⟩
    · exact ⟨rfl, rfl, rfl, rfl, hgridH, hgridW, hturns⟩
  | wrGridH _ =>
    cases h
    cases h'
    rw [hphase]
    split
    · exact ⟨hphase, hbY, hbX, hk, hgridH, hgridW, hturns⟩
    · exact ⟨rfl, hbY, hbX, hk, rfl, hgridW, hturns⟩
  | wrGridW _ =>
    cases h
    cases h'
    rw [hphase]
    split
    · exact ⟨hphase, hbY, hbX, hk, hgridH, hgridW, hturns⟩
    · exact ⟨rfl, hbY, hbX, hk, hgridH, rfl, hturns⟩
  | ctrlNop _ | rdCtrl _ | rdStatus _ | rdGridH _ | rdGridW _ | rdLen _ | rdOutLen _ | rdBitCount _ =>
    cases h
    cases h'
    exact ⟨hphase, hbY, hbX, hk, hgridH, hgridW, hturns⟩
  | finish | visitAbsent | visitSkip | emitHdr | emitPay | emitDrain => cases (Encoding.encode_of_decodeT hi).2

theorem scanAgree_reservedAccess (e : TReject) (s : State) : ScanAgree (reservedAccess e s) s := by
  obtain h | h := reservedAccess_cases e s <;> rw [h] <;> exact ⟨rfl, rfl, rfl, rfl, rfl, rfl, rfl⟩

theorem scanAgree_hostTurn {u : TWord} {s s' t t' : State} (hagree : ScanAgree s s') (h : hostTurn u s = .next t)
    (h' : hostTurn u s' = .next t') : ScanAgree t t' := by
  cases hi : decodeT u with
  | ok i =>
    rw [hostTurn_ok _ u i hi] at h h'
    exact scanAgree_exec_host hi hagree h h'
  | error e =>
    cases (hostTurn_error s u e hi).symm.trans h
    cases (hostTurn_error s' u e hi).symm.trans h'
    exact scanAgree_of_both (scanAgree_reservedAccess e s) hagree (scanAgree_reservedAccess e s')

theorem nextTurn_congr {s s' : State} (h : ScanAgree s s') : nextTurn s = nextTurn s' := by
  obtain ⟨-, -, -, -, -, -, hturns⟩ := h
  rw [nextTurn, nextTurn, hturns]

theorem stepAccess_congr {s s' : State} (h : ScanAgree s s') : stepAccess s = stepAccess s' := by
  rw [stepAccess, stepAccess, nextTurn_congr h, coefAccess_congr h]

/-- Settles O34: agreement is kept by the turn of each agent. -/
theorem coefficientsNeverSteerScan : Obligations.CoefficientsNeverSteerScan := by
  intro s s' t t' hagree h h'
  refine ⟨?_, stepAccess_congr hagree⟩
  have hpop := scanAgree_popTurn hagree
  have hsame := nextTurn_congr hagree
  cases hturn : nextTurn s with
  | sequencer =>
    rw [step_of_nextTurn_sequencer hturn] at h
    rw [step_of_nextTurn_sequencer (hsame ▸ hturn)] at h'
    exact scanAgree_sequencerTurn hpop h h'
  | host u =>
    rw [step_of_nextTurn_host hturn] at h
    rw [step_of_nextTurn_host (hsame ▸ hturn)] at h'
    exact scanAgree_hostTurn hpop h h'
  | coefWrite row col w =>
    cases (step_of_nextTurn_coefWrite hturn).symm.trans h
    cases (step_of_nextTurn_coefWrite (hsame ▸ hturn)).symm.trans h'
    exact hpop
  | hardReset =>
    cases (step_of_nextTurn_hardReset hturn).symm.trans h
    cases (step_of_nextTurn_hardReset (hsame ▸ hturn)).symm.trans h'
    obtain ⟨-, -, -, -, -, -, hturns⟩ := hpop
    exact ⟨rfl, rfl, rfl, rfl, rfl, rfl, hturns⟩

end Sys2Proof.Proofs.Turns

/-! PROOFS. Words and what they select: encoding and decoding are inverse (30_encoding.md R97 to R101), a placed word
runs next (log 13), and every read transaction follows the register map (10_state.md R38). -/

namespace Sys2Proof.Proofs.Words

open Sys2Proof.Machine Sys2Proof.Safety HostOperations

/-! ### Encoding and decoding -/

theorem decode_t {t : TWord} {i : Instr} (h : decodeT t = .ok i) : decode (.t t) = some i := by
  rw [decode, h]
  rfl

/-- Settles O9: a write by its address and command bits, a read by its address, an `S` word by evaluation. -/
theorem decodeOfEncodeIsIdentity : Obligations.DecodeOfEncodeIsIdentity := by
  intro i hwf
  cases i with
  | start wdata => exact decode_t (decodeT_start hwf)
  | clear wdata =>
    obtain ⟨h0, h1⟩ := Bool.and_eq_true_iff.mp hwf
    exact decode_t (decodeT_clear (Bool.not_eq_true' _ |>.mp h0) h1)
  | ctrlNop wdata =>
    obtain ⟨h0, h1⟩ := Bool.and_eq_true_iff.mp hwf
    exact decode_t (decodeT_ctrlNop (Bool.not_eq_true' _ |>.mp h0) (Bool.not_eq_true' _ |>.mp h1))
  | wrGridH wdata | wrGridW wdata => exact decode_t (decodeT_write _ wdata)
  | rdCtrl wdata | rdStatus wdata | rdGridH wdata | rdGridW wdata | rdLen wdata | rdOutLen wdata | rdBitCount wdata =>
    exact decode_t (decodeT_read _ wdata)
  | finish | visitAbsent | visitSkip | emitHdr | emitPay | emitDrain => rfl

/-- Settles O10. -/
theorem transactionWordIsRecovered : Obligations.TransactionWordIsRecovered :=
  fun _ _ => Encoding.encode_of_decodeT

/-- Settles O13: the eight words, evaluated. -/
theorem printedWordsDecode : Obligations.PrintedWordsDecode := by
  unfold Obligations.PrintedWordsDecode
  decide

/-! ### A word placed by `withFetchWord` -/

theorem decodeS_of_decode {w : SWord} {i : Instr} (h : decode (.s w) = some i) : decodeS w = .ok i := by
  rw [decode] at h
  cases hw : decodeS w with
  | ok j => rw [hw] at h; exact congrArg Except.ok (Option.some.inj h)
  | error e => rw [hw] at h; cases h

theorem decodeT_of_decode {t : TWord} {i : Instr} (h : decode (.t t) = some i) : decodeT t = .ok i := by
  rw [decode] at h
  cases ht : decodeT t with
  | ok j => rw [ht] at h; exact congrArg Except.ok (Option.some.inj h)
  | error e => rw [ht] at h; cases h

/-- The state that `placeSelector` makes for a present position, with the coefficient `v` at scan index 1. -/
def placedPresent (f : FramerPhase) (v : CoefWord) (s : State) : State :=
  { s with
    turns := .sequencer :: s.turns, phase := .busy, gridH := 8, gridW := 8, bY := 0, bX := 0, k := 1, fph := f
    coef := writeCell s.coef (coefAddress 0 1).toNat v }

theorem placeSelector_present {w : SWord} (s : State) (hexh : ¬ w.getLsbD 4 = true) (hpres : ¬ (!w.getLsbD 3) = true) :
    placeSelector w s = placedPresent (framerOf w s.fph) (if w.getLsbD 2 then 2 else 0) s :=
  (if_neg hexh).trans (if_neg hpres)

/-- Scan index 1 of the first block is position `(0, 1)` (10_state.md R40). -/
theorem scanPosition_first {s : State} (hbY : s.bY = 0) (hbX : s.bX = 0) (hk : s.k = 1) :
    scanRow s = 0 ∧ scanCol s = 1 := by
  rw [scanRow, scanCol, hbY, hbX, hk]
  decide

theorem present_placedPresent (f : FramerPhase) (v : CoefWord) (s : State) : present (placedPresent f v s) = true := by
  obtain ⟨hrow, hcol⟩ := scanPosition_first (s := placedPresent f v s) rfl rfl rfl
  rw [Turns.present_iff, hrow, hcol]
  exact ⟨show 0 < 8 by decide, show 1 < 8 by decide⟩

theorem scanWord_placedPresent (f : FramerPhase) (v : CoefWord) (s : State) :
    scanWord (placedPresent f v s) = v := by
  obtain ⟨hrow, hcol⟩ := scanPosition_first (s := placedPresent f v s) rfl rfl rfl
  rw [scanWord, hrow, hcol, coefRead, placedPresent, readCell_writeCell_same, Option.getD_some]

theorem decodeS_selector_placedPresent_unusable (f : FramerPhase) (s : State) :
    decodeS (selector (placedPresent f 0 s)) = .ok .visitSkip := by
  refine (Scanner.selector_visitSkip_iff _).mpr ⟨rfl, present_placedPresent f 0 s, ?_⟩
  rw [scanWord_placedPresent]
  decide

theorem decodeS_selector_placedPresent_usable (f : FramerPhase) (s : State) :
    decodeS (selector (placedPresent f 2 s)) = .ok (Turns.emitOperation f) := by
  refine Turns.decodeS_selector_emit (s := placedPresent f 2 s) rfl (present_placedPresent f 2 s) ?_
  rw [scanWord_placedPresent]
  decide

/-- On a grid of one position the scan starts at an absent one. -/
theorem decodeS_selector_single {s : State} (hgridH : s.gridH = 1) (hgridW : s.gridW = 1) (hbY : s.bY = 0)
    (hbX : s.bX = 0) (hk : s.k = 1) : decodeS (selector s) = .ok .visitAbsent := by
  refine (Scanner.selector_visitAbsent_iff s).mpr ⟨?_, (Scanner.present_eq_false_iff s).mpr (.inr ?_)⟩
  · rw [exhausted, hgridH, hgridW, hbY]
    decide
  · rw [(scanPosition_first hbY hbX hk).2, hgridW]
    decide

/-- The placed state selects the operation of the placed word, branch by branch of the decoder. -/
theorem decodeS_selector_placeSelector {w : SWord} {i : Instr} (s : State) (h : decodeS w = .ok i) :
    decodeS (selector (placeSelector w s)) = .ok i := by
  unfold decodeS at h
  split_ifs at h with hexh hpres huse hhdr hpay hdrain <;> cases h
  · rw [placeSelector, if_pos hexh]
    exact decodeS_selector_of_exhausted rfl
  · rw [placeSelector, if_neg hexh, if_pos hpres]
    exact decodeS_selector_single rfl rfl rfl rfl rfl
  all_goals rw [placeSelector_present s hexh hpres]
  · rw [if_neg (by simpa using huse)]
    exact decodeS_selector_placedPresent_unusable _ s
  all_goals rw [if_pos (by simpa using huse), decodeS_selector_placedPresent_usable]
  · rw [framerOf, if_pos hhdr]
    rfl
  · rw [framerOf, if_neg hhdr, if_pos hpay]
    rfl
  · rw [framerOf, if_neg hhdr, if_neg hpay, if_pos hdrain]
    rfl

theorem placeSelector_turns (w : SWord) (s : State) : (placeSelector w s).turns = .sequencer :: s.turns := by
  unfold placeSelector
  split_ifs <;> rfl

theorem placeSelector_phase (w : SWord) (s : State) : (placeSelector w s).phase = .busy := by
  unfold placeSelector
  split_ifs <;> rfl

theorem step_placeSelector {w : SWord} {i : Instr} (s : State) (h : decodeS w = .ok i) :
    step (placeSelector w s) = exec i { placeSelector w s with turns := s.turns } := by
  have hturns := placeSelector_turns w s
  rw [step_sequencer _ _ hturns, sequencerTurn_busy (popTurn _) i (placeSelector_phase w s)
    (decodeS_selector_placeSelector s h), popTurn_eq hturns]

/-- Settles O8: an `S` word by the state made for it, a `T` word as the next host turn. -/
theorem placedWordRunsNext : Obligations.PlacedWordRunsNext := by
  intro s nbits w i h
  rw [decodeTableWord] at h
  rw [State.withFetchWord, placeWord]
  by_cases hbits : nbits ≤ 8
  · rw [if_pos hbits, Option.ite_none_right_eq_some] at h
    rw [if_pos hbits]
    exact step_placeSelector s (decodeS_of_decode h.2)
  · rw [if_neg hbits, Option.ite_none_right_eq_some] at h
    rw [if_neg hbits]
    exact step_host_ok rfl (decodeT_of_decode h.2)

/-! ### Reads and the register map -/

/-- A read of a register decodes to the operation that answers its entry of the register map. -/
theorem decodeRead_mapped {addr : BitVec 8} (wdata : Word)
    (h : addr ∈ [0x00#8, 0x04#8, 0x08#8, 0x0C#8, 0x10#8, 0x14#8, 0x18#8]) :
    ∃ i, decodeRead addr wdata = .ok i ∧ ∀ s, exec i s = .next (respond (registerMap s addr) s) := by
  simp only [List.mem_cons, List.not_mem_nil, or_false] at h
  obtain rfl | rfl | rfl | rfl | rfl | rfl | rfl := h <;> exact ⟨_, rfl, fun _ => rfl⟩

theorem registerMap_unmapped {addr : BitVec 8} (s : State)
    (h : addr ∉ [0x00#8, 0x04#8, 0x08#8, 0x0C#8, 0x10#8, 0x14#8, 0x18#8]) : registerMap s addr = 0 := by
  simp only [List.mem_cons, List.not_mem_nil, or_false, not_or] at h
  simp [registerMap, h]

theorem hostTurn_read {t : TWord} (s : State) (h : tWe t = false) :
    hostTurn t s = .next (respond (registerMap s (tAddr t)) s) := by
  have hdec : decodeT t = decodeRead (tAddr t) (tWdata t) := if_neg (Bool.eq_false_iff.mp h)
  by_cases hmapped : tAddr t ∈ [0x00#8, 0x04#8, 0x08#8, 0x0C#8, 0x10#8, 0x14#8, 0x18#8]
  · obtain ⟨i, hi, hexec⟩ := decodeRead_mapped (tWdata t) hmapped
    rw [hostTurn_ok s t i (hdec.trans hi), hexec]
  · rw [hostTurn_error s t _ (hdec.trans (decodeRead_unmapped (tWdata t) hmapped)), registerMap_unmapped s hmapped]
    rfl

/-- Settles O22. -/
theorem readTransactionsFollowRegisterMap : Obligations.ReadTransactionsFollowRegisterMap := by
  intro s t rest hturns hread
  rw [step_host s t rest hturns, hostTurn_read (popTurn s) hread, popTurn_eq hturns]
  rfl

end Sys2Proof.Proofs.Words

/-! PROOFS. The filter, the scan order and `extract` (40_reference_functions.md R121 to R124). `extract` and the list of
positions read are both taken from one list, the visits of an operation in order: every origin with every scan index
1 to 63. -/

namespace Sys2Proof.Proofs.ScanOrder

open Sys2Proof.Machine

/-! ### The filter on 16-bit words -/

theorem toInt_eq (w : CoefWord) : w.toInt = if w.toNat < 32768 then (w.toNat : Int) else w.toNat - 65536 := by
  rw [BitVec.toInt_eq_toNat_cond]
  split_ifs <;> omega

/-- The magnitude of a coefficient has the parity of its word, for both signs. -/
theorem natAbs_toInt_mod_two (w : CoefWord) : w.toInt.natAbs % 2 = w.toNat % 2 := by
  rw [toInt_eq]
  split_ifs <;> omega

theorem one_lt_natAbs_toInt_iff (w : CoefWord) :
    1 < w.toInt.natAbs ↔ w.toNat ≠ 0 ∧ w.toNat ≠ 1 ∧ w.toNat ≠ 65535 := by
  have hw := w.isLt
  rw [toInt_eq]
  split_ifs <;> omega

/-- Settles O39: both tests on the number that the word is, by its sign. -/
theorem usableAndBitReduceToBitTests : Obligations.UsableAndBitReduceToBitTests := by
  intro w
  constructor
  · rw [usable, signedValue, decide_eq_true_iff, one_lt_natAbs_toInt_iff, Ne, Ne, Ne, Ne, Ne, Ne, ← BitVec.toNat_inj,
      ← BitVec.toNat_inj, ← BitVec.toNat_inj]
    rfl
  · rw [bitOf, signedValue, natAbs_toInt_mod_two, BitVec.getLsbD, Nat.testBit_zero]

/-! ### The zigzag table -/

/-- Settles O40: the table is fixed data. -/
theorem zigzagIsTheClassicalOrder : Obligations.ZigzagIsTheClassicalOrder := by
  unfold Obligations.ZigzagIsTheClassicalOrder
  decide

theorem zigzag_nodup : ((List.range 64).map zigzag).Nodup :=
  zigzagIsTheClassicalOrder.2.2.2.2.1

theorem zigzag_inj {k k' : Nat} (hk : k < 64) (hk' : k' < 64) (h : zigzag k = zigzag k') : k = k' :=
  List.inj_on_of_nodup_map zigzag_nodup (List.mem_range.mpr hk) (List.mem_range.mpr hk') h

/-! ### Block origins -/

theorem mem_bandOrigins {n y : Nat} : y ∈ bandOrigins n ↔ 8 ∣ y ∧ y < n := by
  simp only [bandOrigins, List.mem_map, List.mem_range, ceil8]
  constructor
  · rintro ⟨i, hi, rfl⟩
    omega
  · rintro ⟨⟨i, rfl⟩, hlt⟩
    exact ⟨i, by omega, rfl⟩

theorem bandOrigins_nodup (n : Nat) : (bandOrigins n).Nodup :=
  List.nodup_range.map fun a b h => by omega

theorem length_bandOrigins (n : Nat) : (bandOrigins n).length = ceil8 n := by
  simp [bandOrigins]

/-- The origins are the pairs of a row origin and a column origin, in row-major order. -/
theorem origins_eq_product (height width : Nat) : origins height width = bandOrigins height ×ˢ bandOrigins width := rfl

theorem mem_origins {height width : Nat} {o : Nat × Nat} :
    o ∈ origins height width ↔ (8 ∣ o.1 ∧ o.1 < height) ∧ 8 ∣ o.2 ∧ o.2 < width := by
  obtain ⟨y, x⟩ := o
  rw [origins_eq_product, List.mem_product, mem_bandOrigins, mem_bandOrigins]

theorem origins_nodup (height width : Nat) : (origins height width).Nodup :=
  (bandOrigins_nodup height).product (bandOrigins_nodup width)

theorem length_origins (height width : Nat) : (origins height width).length = ceil8 height * ceil8 width := by
  rw [origins_eq_product, List.length_product, length_bandOrigins, length_bandOrigins]

/-! ### The visits of an operation -/

/-- A visit: the origin of a block and a scan index. -/
abbrev Visit := (Nat × Nat) × Nat

/-- The visits of an operation in order: block by block, scan indices 1 to 63 in each (42_scanner.md R163). -/
def visitOrder (height width : Nat) : List Visit :=
  origins height width ×ˢ List.range' 1 63

/-- The position of a visit (42_scanner.md R164). -/
def visitPosition (v : Visit) : Nat × Nat :=
  (v.1.1 + (zigzag v.2).1, v.1.2 + (zigzag v.2).2)

/-- Presence (42_scanner.md R165). -/
def inGrid (height width : Nat) (p : Nat × Nat) : Bool :=
  decide (p.1 < height) && decide (p.2 < width)

theorem length_visitOrder (height width : Nat) : (visitOrder height width).length = visitCount height width := by
  rw [visitOrder, List.length_product, length_origins, List.length_range', visitCount, Nat.mul_comm, Nat.mul_assoc]

theorem mem_visitOrder {height width : Nat} {v : Visit} :
    v ∈ visitOrder height width ↔ v.1 ∈ origins height width ∧ 1 ≤ v.2 ∧ v.2 < 64 := by
  obtain ⟨o, k⟩ := v
  rw [visitOrder, List.mem_product, List.mem_range'_1]

theorem visitOrder_nodup (height width : Nat) : (visitOrder height width).Nodup :=
  (origins_nodup height width).product List.nodup_range'

/-- The positions read are those of the visits that lie in the grid. -/
theorem scanPositions_eq_filter (height width : Nat) :
    scanPositions height width = ((visitOrder height width).map visitPosition).filter (inGrid height width) := by
  have horder : visitOrder height width = (origins height width).flatMap fun o => (List.range' 1 63).map (o, ·) := rfl
  rw [horder, List.map_flatMap, List.filter_flatMap, scanPositions]
  refine List.flatMap_congr fun o _ => ?_
  rw [List.map_map]
  rfl

/-- `extract` applies the filter to the positions read, in order (40_reference_functions.md R123). -/
theorem extract_eq_filterMap (height width : Nat) (g : Nat → Nat → Int) :
    extract height width g = (scanPositions height width).filterMap fun p => symbolBit (g p.1 p.2) := by
  rw [scanPositions, List.filterMap_flatMap]
  rfl

theorem inGrid_iff {height width : Nat} {p : Nat × Nat} :
    inGrid height width p = true ↔ p.1 < height ∧ p.2 < width := by
  simp [inGrid]

theorem mem_scanPositions {height width : Nat} {p : Nat × Nat} :
    p ∈ scanPositions height width ↔
      (∃ v ∈ visitOrder height width, visitPosition v = p) ∧ p.1 < height ∧ p.2 < width := by
  rw [scanPositions_eq_filter, List.mem_filter, List.mem_map, inGrid_iff]

/-! ### Distinct visits have distinct positions -/

/-- The origin and the offset in the block are the quotient and the remainder of a position. -/
theorem visitPosition_inj {height width : Nat} {v v' : Visit} (hv : v ∈ visitOrder height width)
    (hv' : v' ∈ visitOrder height width) (h : visitPosition v = visitPosition v') : v = v' := by
  obtain ⟨⟨y, x⟩, k⟩ := v
  obtain ⟨⟨y', x'⟩, k'⟩ := v'
  obtain ⟨horigin, -, hk⟩ := mem_visitOrder.mp hv
  obtain ⟨horigin', -, hk'⟩ := mem_visitOrder.mp hv'
  obtain ⟨⟨hy, -⟩, hx, -⟩ := mem_origins.mp horigin
  obtain ⟨⟨hy', -⟩, hx', -⟩ := mem_origins.mp horigin'
  obtain ⟨hrow, hcol⟩ := Prod.mk.inj h
  dsimp only at hy hx hy' hx' hk hk' hrow hcol
  have hoffset := Scanner.zigzag_lt_eight k hk
  have hoffset' := Scanner.zigzag_lt_eight k' hk'
  have hzigzag : zigzag k = zigzag k' := Prod.ext (by omega) (by omega)
  have hky : y = y' := by omega
  have hkx : x = x' := by omega
  rw [zigzag_inj hk hk' hzigzag, hky, hkx]

/-- Scan indices 1 to 63 leave the DC position of the block (42_scanner.md R163). -/
theorem visitPosition_not_dc {height width : Nat} {v : Visit} (hv : v ∈ visitOrder height width) :
    ¬ (8 ∣ (visitPosition v).1 ∧ 8 ∣ (visitPosition v).2) := by
  obtain ⟨⟨y, x⟩, k⟩ := v
  obtain ⟨horigin, hpos, hk⟩ := mem_visitOrder.mp hv
  obtain ⟨⟨hy, -⟩, hx, -⟩ := mem_origins.mp horigin
  dsimp only at hy hx hpos hk
  have hoffset := Scanner.zigzag_lt_eight k hk
  rintro ⟨hrow, hcol⟩
  dsimp only [visitPosition] at hrow hcol
  have hzigzag : zigzag k = zigzag 0 := Prod.ext (show _ = 0 by omega) (show _ = 0 by omega)
  have hzero := zigzag_inj hk (by omega) hzigzag
  omega

theorem scanPositions_nodup (height width : Nat) : (scanPositions height width).Nodup := by
  rw [scanPositions_eq_filter]
  exact ((visitOrder_nodup height width).map_on fun _ hv _ hv' => visitPosition_inj hv hv').filter _

/-- The positions read and the DC positions are together positions of the grid, none twice. -/
theorem length_scanPositions_add_le (height width : Nat) :
    (scanPositions height width).length + (origins height width).length ≤ height * width := by
  have hnodup : (scanPositions height width ++ origins height width).Nodup := by
    refine (scanPositions_nodup height width).append (origins_nodup height width) fun p hp horigin => ?_
    obtain ⟨⟨v, hv, rfl⟩, -⟩ := mem_scanPositions.mp hp
    obtain ⟨⟨hrow, -⟩, hcol, -⟩ := mem_origins.mp horigin
    exact visitPosition_not_dc hv ⟨hrow, hcol⟩
  have hgrid : scanPositions height width ++ origins height width ⊆ List.range height ×ˢ List.range width := by
    rintro ⟨row, col⟩ hp
    rw [List.mem_product, List.mem_range, List.mem_range]
    obtain hp | hp := List.mem_append.mp hp
    · exact (mem_scanPositions.mp hp).2
    · obtain ⟨⟨-, hrow⟩, -, hcol⟩ := mem_origins.mp hp
      exact ⟨hrow, hcol⟩
  simpa [List.length_product] using (List.subperm_of_subset hnodup hgrid).length_le

theorem length_scanPositions_le (height width : Nat) :
    (scanPositions height width).length ≤ visitCount height width := by
  rw [scanPositions_eq_filter, ← length_visitOrder, ← List.length_map visitPosition]
  exact List.length_filter_le _ _

theorem length_extract_le (height width : Nat) (g : Nat → Nat → Int) :
    (extract height width g).length ≤ (scanPositions height width).length := by
  rw [extract_eq_filterMap]
  exact List.length_filterMap_le _ _

/-- Settles O41: a position read is in the grid and is no DC position. -/
theorem extractIgnoresDcCoefficients : Obligations.ExtractIgnoresDcCoefficients := by
  intro height width g g' hagree
  rw [extract_eq_filterMap, extract_eq_filterMap]
  refine List.filterMap_congr fun p hp => ?_
  obtain ⟨⟨v, hv, rfl⟩, hrow, hcol⟩ := mem_scanPositions.mp hp
  rw [hagree _ _ hrow hcol (visitPosition_not_dc hv)]

/-- Settles O42: at most one bit for each position read. -/
theorem extractLengthBounded : Obligations.ExtractLengthBounded := by
  intro height width g
  have hbits := length_extract_le height width g
  refine ⟨hbits.trans (length_scanPositions_le height width), ?_⟩
  rw [← length_origins]
  exact (Nat.add_le_add_right hbits _).trans (length_scanPositions_add_le height width)

end Sys2Proof.Proofs.ScanOrder

/-! PROOFS. Bit lists, packed bytes and `decode` (40_reference_functions.md R125, R126, R130, R131). A bit list is a
number built bit by bit, and a packed byte is the number of its eight bits. -/

namespace Sys2Proof.Proofs.Bits

open Sys2Proof.Machine

/-! ### The number a bit list is -/

@[simp] theorem bitsValue_nil : bitsValue [] = 0 := rfl

/-- The first bit is the most significant (30_encoding.md R91). -/
theorem bitsValue_cons (b : Bool) (s : List Bool) : bitsValue (b :: s) = b.toNat * 2 ^ s.length + bitsValue s := by
  simp [bitsValue, List.range_succ_eq_map, Function.comp_def, Nat.sub_sub, Nat.add_comm 1]

theorem bitsValue_append (s t : List Bool) : bitsValue (s ++ t) = bitsValue s * 2 ^ t.length + bitsValue t := by
  induction s with
  | nil => simp
  | cons b s ih =>
    rw [List.cons_append, bitsValue_cons, ih, bitsValue_cons, List.length_append, pow_add]
    ring

/-- Shifting in one more bit doubles and adds. -/
theorem bitsValue_concat (s : List Bool) (b : Bool) : bitsValue (s ++ [b]) = 2 * bitsValue s + b.toNat := by
  rw [bitsValue_append, bitsValue_cons]
  simp [Nat.mul_comm]

theorem bitsValue_lt (s : List Bool) : bitsValue s < 2 ^ s.length := by
  induction s with
  | nil => simp
  | cons b s ih =>
    have hbit := b.toNat_le
    rw [bitsValue_cons, List.length_cons, pow_succ]
    nlinarith

theorem bitsValue_replicate_false (n : Nat) : bitsValue (List.replicate n false) = 0 := by
  induction n with
  | zero => rfl
  | succ n ih => rw [List.replicate_succ, bitsValue_cons, ih]; simp

@[simp] theorem length_bitsOf (n v : Nat) : (bitsOf n v).length = n := by
  simp [bitsOf]

theorem bitsOf_succ (n v : Nat) : bitsOf (n + 1) v = v.testBit n :: bitsOf n v := by
  simp [bitsOf, List.range_succ_eq_map, Function.comp_def, Nat.sub_sub, Nat.add_comm 1]

/-- The bits of a number are that number again, as far as they reach. -/
theorem bitsValue_bitsOf (n v : Nat) : bitsValue (bitsOf n v) = v % 2 ^ n := by
  induction n with
  | zero => simp [bitsOf, Nat.mod_one]
  | succ n ih =>
    rw [bitsOf_succ, bitsValue_cons, length_bitsOf, ih, Nat.mod_pow_succ, Nat.toNat_testBit]
    ring

/-! ### Packed bytes -/

/-- Byte `j` is the number of its eight bits, a bit beyond the end being 0 (40_reference_functions.md R125). -/
theorem packByte_eq_bitsValue (p : List Bool) (j : Nat) :
    packByte p j = bitsValue ((List.range 8).map fun t => p.getD (8 * j + t) false) := by
  simp [packByte, bitsValue, List.range_succ]

/-- The eight bits of byte `j` are those that are there, then zeros. -/
theorem map_getD_eq_append_replicate (p : List Bool) (n len : Nat) :
    (List.range len).map (fun t => p.getD (n + t) false) =
      (p.drop n).take len ++ List.replicate (len - (p.drop n).length) false := by
  refine List.ext_getElem? fun t => ?_
  rw [List.getElem?_append]
  by_cases ht : t < len
  · by_cases hp : n + t < p.length
    · simp [ht, hp, show t < p.length - n by omega, List.getD_eq_getElem?_getD]
    · simp [ht, hp, show ¬ t < p.length - n by omega, List.getD_eq_getElem?_getD, List.getElem?_replicate]
      omega
  · simp [ht, List.getElem?_replicate]
    omega

theorem packByte_eq_shifted (p : List Bool) (j : Nat) :
    packByte p j = bitsValue ((p.drop (8 * j)).take 8) * 2 ^ (8 - (p.drop (8 * j)).length) := by
  rw [packByte_eq_bitsValue, map_getD_eq_append_replicate, bitsValue_append, bitsValue_replicate_false,
    List.length_replicate, Nat.add_zero]

/-- A byte that is whole does not depend on the bits after it. -/
theorem packByte_append {p : List Bool} (q : List Bool) {j : Nat} (h : 8 * j + 8 ≤ p.length) :
    packByte (p ++ q) j = packByte p j := by
  rw [packByte_eq_bitsValue, packByte_eq_bitsValue]
  congr 1
  refine List.map_congr_left fun t ht => ?_
  have hlt := List.mem_range.mp ht
  exact List.getD_append p q false _ (by omega)

theorem pack_getD {p : List Bool} {j : Nat} (h : j < ceil8 p.length) : (pack p).getD j 0 = packByte p j := by
  simp [pack, List.getD_eq_getElem?_getD, h]

theorem pack_append_chunk {c p : List Bool} (hc : c.length = 8) : pack (c ++ p) = bitsValue c :: pack p := by
  have hcount : ceil8 (c ++ p).length = ceil8 p.length + 1 := by
    rw [List.length_append, hc, ceil8, ceil8]
    omega
  have hfirst : packByte (c ++ p) 0 = bitsValue c := by
    rw [packByte_append p (by omega), packByte_eq_shifted]
    simp [hc, List.take_of_length_le]
  have hrest : ∀ j, packByte (c ++ p) (j + 1) = packByte p j := fun j => by
    rw [packByte_eq_shifted, packByte_eq_shifted, Nat.mul_succ, Nat.add_comm, ← List.drop_drop, List.drop_left' hc]
  rw [pack, hcount, List.range_succ_eq_map, List.map_cons, List.map_map, hfirst]
  simp [pack, Function.comp_def, hrest]

theorem length_flatMap_bitsOf (bytes : List Nat) : (bytes.flatMap (bitsOf 8)).length = 8 * bytes.length := by
  simp [List.length_flatMap, Nat.mul_comm]

/-- Packing the bits of bytes gives the bytes. -/
theorem pack_flatMap_bitsOf {bytes : List Nat} (h : ∀ b ∈ bytes, b < 256) :
    pack (bytes.flatMap (bitsOf 8)) = bytes := by
  induction bytes with
  | nil => rfl
  | cons b bytes ih =>
    obtain ⟨hb, hbytes⟩ := List.forall_mem_cons.mp h
    rw [List.flatMap_cons, pack_append_chunk (length_bitsOf 8 b), bitsValue_bitsOf, ih hbytes,
      Nat.mod_eq_of_lt (show b < 2 ^ 8 from hb)]

/-! ### `decode` -/

/-- The declared length of a stream is that of its first 32 bits, whatever follows. -/
theorem declaredLength_append {s : List Bool} (t : List Bool) (h : 32 ≤ s.length) :
    declaredLength (s ++ t) = declaredLength s := by
  rw [declaredLength, declaredLength, List.take_append_of_le_length h]

/-- Settles O44: the header declares the number of bytes, and packing the payload gives them. -/
theorem framedPayloadDecodesToItself : Obligations.FramedPayloadDecodesToItself := by
  intro policy bytes hbytes hlength
  have hheader : (bitsOf 32 bytes.length).length = 32 := length_bitsOf 32 _
  have hpayload := length_flatMap_bitsOf bytes
  have hdeclared : declaredLength (bitsOf 32 bytes.length ++ bytes.flatMap (bitsOf 8)) = bytes.length := by
    rw [declaredLength, List.take_left' hheader, bitsValue_bitsOf, Nat.mod_eq_of_lt hlength]
  rw [Decode.decodeFrame_of_enough (by simp) (by rw [hdeclared]; simp [hpayload]), hdeclared, List.drop_left' hheader,
    List.take_of_length_le (by omega), pack_flatMap_bitsOf hbytes]

theorem decodeFrame_of_no_header {policy : Config.UnderrunPolicy} {s : List Bool} (h : s.length < 32) :
    decodeFrame policy s = .err .insufficientHeader := by
  rw [decodeFrame.eq_def, if_pos h]

theorem decodeFrame_strict_of_short {s : List Bool} (hheader : 32 ≤ s.length)
    (hshort : s.length - 32 < 8 * declaredLength s) : decodeFrame .strict s = .err .truncatedPayload := by
  rw [decodeFrame.eq_def, if_neg hheader.not_gt, if_neg hshort.not_ge]

/-- `decode` succeeds without underrun only on a stream with a header and every declared bit. -/
theorem enough_of_decodeFrame_ok {policy : Config.UnderrunPolicy} {s : List Bool} {bytes : List Nat}
    (h : decodeFrame policy s = .ok bytes false) : 32 ≤ s.length ∧ 8 * declaredLength s ≤ s.length - 32 := by
  rcases Nat.lt_or_ge s.length 32 with hnone | hheader
  · cases (decodeFrame_of_no_header hnone).symm.trans h
  rcases Nat.lt_or_ge (s.length - 32) (8 * declaredLength s) with hshort | henough
  · cases policy with
    | pad => cases (Decode.decodeFrame_pad_of_short hheader hshort).symm.trans h
    | strict => cases (decodeFrame_strict_of_short hheader hshort).symm.trans h
  · exact ⟨hheader, henough⟩

/-- Settles O45: the stream with a trailer declares the same length and has the same declared bits. -/
theorem trailingBitsNeverMatter : Obligations.TrailingBitsNeverMatter := by
  intro policy s trailer bytes h
  obtain ⟨hheader, henough⟩ := enough_of_decodeFrame_ok h
  have hdeclared := declaredLength_append trailer hheader
  rw [← h, Decode.decodeFrame_of_enough hheader henough,
    Decode.decodeFrame_of_enough (by rw [List.length_append]; omega) (by rw [hdeclared, List.length_append]; omega),
    hdeclared, List.drop_append_of_le_length hheader, List.take_append_of_le_length (by rw [List.length_drop]; omega)]

end Sys2Proof.Proofs.Bits

/-! PROOFS. The invariants of 10_state.md R44. The framer's registers and the scan's registers are kept apart: a visit
changes each by its own operation (`framed`, `advance`), and only the number of bits counted links them. -/

namespace Sys2Proof.Proofs.Invariant

open Sys2Proof.Machine Sys2Proof.Safety Turns

/-! ### The two parts of a running operation -/

/-- The framer's registers before `FINISH`, in numbers (10_state.md R44). -/
structure FramerInv (s : State) : Prop where
  hdrCnt_eq : s.hdrCnt.toNat = min s.bitCount.toNat 32
  fph_eq : s.fph = if s.hdrCnt.toNat < 32 then .hdr else if s.rem.toNat = 0 then .drain else .pay
  pending : s.hdrCnt.toNat < 32 →
    s.rem.toNat = 0 ∧ s.nb.toNat = 0 ∧ s.shreg.toNat = 0 ∧ s.outCnt.toNat = 0 ∧ s.len.toNat < 2 ^ s.hdrCnt.toNat
  balance : 32 ≤ s.hdrCnt.toNat → 8 * s.outCnt.toNat + s.nb.toNat + s.rem.toNat = 8 * s.len.toNat
  shreg_lt : s.shreg.toNat < 2 ^ s.nb.toNat
  pay_count : 32 ≤ s.hdrCnt.toNat → s.rem.toNat ≠ 0 → s.bitCount.toNat = 32 + 8 * s.outCnt.toNat + s.nb.toNat
  no_result : s.outLen = 0 ∧ s.errCode = .none ∧ s.underrun = false

/-- The scan's registers during an operation (10_state.md R24 to R26, R44). -/
structure ScanInv (s : State) : Prop where
  bY_aligned : s.bY.toNat % 8 = 0
  bX_aligned : s.bX.toNat % 8 = 0
  k_pos : 1 ≤ s.k.toNat
  block : s.bX.toNat < s.gridW.toNat ∨ (s.gridW = 0 ∧ s.bX = 0 ∧ s.k = 1)
  band : s.bY.toNat < s.gridH.toNat + 8

/-- A running operation: both parts, and no more bits counted than positions visited. -/
structure Running (s : State) : Prop where
  busy : s.phase = .busy
  framer : FramerInv s
  scan : ScanInv s
  count : s.bitCount.toNat ≤ visited s

theorem toNat_eq_zero_iff {n : Nat} (x : BitVec n) : x.toNat = 0 ↔ x = 0 := by
  rw [← BitVec.toNat_inj]
  simp

/-! ### `CoreInv` and its parts -/

theorem FramerInv.fph_hdr {s : State} (h : FramerInv s) : s.fph = .hdr ↔ s.hdrCnt.toNat < 32 := by
  rw [h.fph_eq]
  split_ifs <;> simp_all

theorem FramerInv.fph_pay {s : State} (h : FramerInv s) : s.fph = .pay ↔ 32 ≤ s.hdrCnt.toNat ∧ s.rem.toNat ≠ 0 := by
  rw [h.fph_eq]
  split_ifs <;> simp_all

theorem FramerInv.fph_drain {s : State} (h : FramerInv s) :
    s.fph = .drain ↔ 32 ≤ s.hdrCnt.toNat ∧ s.rem.toNat = 0 := by
  rw [h.fph_eq]
  split_ifs <;> simp_all

/-- A complete payload ends with a whole byte: `NB` is what `8 * LEN` leaves of `8 * OUTCNT`. -/
theorem FramerInv.drained {s : State} (h : FramerInv s) (hhdr : 32 ≤ s.hdrCnt.toNat) (hrem : s.rem.toNat = 0) :
    s.nb.toNat = 0 ∧ s.outCnt.toNat = s.len.toNat := by
  have hbalance := h.balance hhdr
  have hnb := s.nb.isLt
  omega

theorem FramerInv.outCnt_le {s : State} (h : FramerInv s) : s.outCnt.toNat ≤ s.len.toNat := by
  rcases Nat.lt_or_ge s.hdrCnt.toNat 32 with hhdr | hhdr
  · obtain ⟨-, -, -, hout, -⟩ := h.pending hhdr
    omega
  · have hbalance := h.balance hhdr
    omega

theorem coreInv_of_running {s : State} (h : Running s) (hcoef : Memory.wf s.coef = true)
    (hpay : Memory.wf s.pay = true) : CoreInv s where
  bY_aligned := h.scan.bY_aligned
  bX_aligned := h.scan.bX_aligned
  k_pos := h.scan.k_pos
  hdrCnt_eq := h.framer.hdrCnt_eq
  fph_hdr := h.framer.fph_hdr
  balance _ hhdr := h.framer.balance hhdr.ge
  fph_pay hhdr := by
    rw [h.framer.fph_pay, Ne, toNat_eq_zero_iff]
    exact and_iff_right hhdr.ge
  fph_drain hhdr := by
    rw [h.framer.fph_drain, toNat_eq_zero_iff]
    exact and_iff_right hhdr.ge
  drain_nb hdrain := by
    obtain ⟨hhdr, hrem⟩ := h.framer.fph_drain.mp hdrain
    exact (toNat_eq_zero_iff _).mp (h.framer.drained hhdr hrem).1
  header_pending hhdr := by
    simpa only [toNat_eq_zero_iff] using h.framer.pending hhdr
  shreg_lt := h.framer.shreg_lt
  no_result _ := h.framer.no_result
  idle_reset hidle := by cases hidle.symm.trans h.busy
  outCnt_le := h.framer.outCnt_le
  pay_count _ hpay := by
    obtain ⟨hhdr, hrem⟩ := h.framer.fph_pay.mp hpay
    exact h.framer.pay_count hhdr hrem
  ended hdone := by cases hdone.symm.trans h.busy
  busy_count _ := h.count
  busy_block _ := h.scan.block
  busy_band _ := h.scan.band
  coef_wf := hcoef
  pay_wf := hpay

theorem framerInv_of_coreInv {s : State} (h : CoreInv s) (hdone : s.phase ≠ .done) : FramerInv s := by
  have hcount := h.hdrCnt_eq
  have hheader : 32 ≤ s.hdrCnt.toNat → s.hdrCnt.toNat = 32 := fun hhdr => by omega
  refine ⟨h.hdrCnt_eq, ?_, fun hhdr => ?_, fun hhdr => h.balance hdone (hheader hhdr), h.shreg_lt,
    fun hhdr hrem => h.pay_count hdone ?_, h.no_result hdone⟩
  · split_ifs with hhdr hrem
    · exact h.fph_hdr.mpr hhdr
    · exact (h.fph_drain (hheader (by omega))).mpr ((toNat_eq_zero_iff _).mp hrem)
    · exact (h.fph_pay (hheader (by omega))).mpr (mt (toNat_eq_zero_iff _).mpr hrem)
  · simpa only [toNat_eq_zero_iff] using h.header_pending hhdr
  · exact (h.fph_pay (hheader hhdr)).mpr (mt (toNat_eq_zero_iff _).mpr hrem)

theorem running_of_coreInv {s : State} (h : CoreInv s) (hbusy : s.phase = .busy) : Running s where
  busy := hbusy
  framer := framerInv_of_coreInv h (by simp [hbusy])
  scan := ⟨h.bY_aligned, h.bX_aligned, h.k_pos, h.busy_block hbusy, h.busy_band hbusy⟩
  count := h.busy_count hbusy

/-! ### The scan -/

/-- What `advance()` does to the values of the scan registers: it never wraps around. -/
theorem advance_cases {s : State} (hexh : exhausted s = false) :
    (s.k.toNat < 63 ∧ (advance s).k.toNat = s.k.toNat + 1 ∧ (advance s).bX.toNat = s.bX.toNat ∧
      (advance s).bY.toNat = s.bY.toNat) ∨
    (s.k.toNat = 63 ∧ s.bX.toNat + 8 < s.gridW.toNat ∧ (advance s).k.toNat = 1 ∧
      (advance s).bX.toNat = s.bX.toNat + 8 ∧ (advance s).bY.toNat = s.bY.toNat) ∨
    (s.k.toNat = 63 ∧ s.gridW.toNat ≤ s.bX.toNat + 8 ∧ (advance s).k.toNat = 1 ∧
      (advance s).bX.toNat = 0 ∧ (advance s).bY.toNat = s.bY.toNat + 8) := by
  obtain ⟨-, hband⟩ := (Scanner.exhausted_eq_false_iff s).mp hexh
  have hH := s.gridH.isLt
  have hW := s.gridW.isLt
  have hK := s.k.isLt
  rw [Scanner.advance_eq_scanAdvanced, scanAdvanced]
  split_ifs with hk hb
  · refine .inl ⟨hk, ?_, rfl, rfl⟩
    rw [BitVec.toNat_add_of_lt (show s.k.toNat + 1 < 2 ^ 6 by omega)]
    rfl
  · refine .inr (.inl ⟨by omega, hb, rfl, ?_, rfl⟩)
    rw [BitVec.toNat_add_of_lt (show s.bX.toNat + 8 < 2 ^ 17 by omega)]
    rfl
  · refine .inr (.inr ⟨by omega, by omega, rfl, rfl, ?_⟩)
    rw [BitVec.toNat_add_of_lt (show s.bY.toNat + 8 < 2 ^ 17 by omega)]
    rfl

/-- The block of an unexhausted scan starts in the grid. -/
theorem ScanInv.inside {s : State} (h : ScanInv s) (hexh : exhausted s = false) :
    s.bX.toNat < s.gridW.toNat ∧ s.bY.toNat < s.gridH.toNat := by
  obtain ⟨hwidth, hband⟩ := (Scanner.exhausted_eq_false_iff s).mp hexh
  exact ⟨h.block.resolve_right fun hempty => hwidth hempty.1, hband⟩

theorem ScanInv.advance {s : State} (h : ScanInv s) (hexh : exhausted s = false) : ScanInv (advance s) := by
  obtain ⟨hblock, hband⟩ := h.inside hexh
  have hbY := h.bY_aligned
  have hbX := h.bX_aligned
  have hgridW : (Machine.advance s).gridW.toNat = s.gridW.toNat := rfl
  have hgridH : (Machine.advance s).gridH.toNat = s.gridH.toNat := rfl
  obtain ⟨_, hk, hx, hy⟩ | ⟨_, _, hk, hx, hy⟩ | ⟨_, _, hk, hx, hy⟩ := advance_cases hexh <;>
    exact ⟨by omega, by omega, by omega, .inl (by omega), by omega⟩

/-- `advance()` counts one visit: to the next scan index, block or band. -/
theorem visited_advance {s : State} (h : ScanInv s) (hexh : exhausted s = false) :
    visited (advance s) = visited s + 1 := by
  obtain ⟨hblock, -⟩ := h.inside hexh
  have hbY := h.bY_aligned
  have hbX := h.bX_aligned
  have hk := h.k_pos
  obtain ⟨_, hk', hx, hy⟩ | ⟨_, _, hk', hx, hy⟩ | ⟨_, _, hk', hx, hy⟩ := advance_cases hexh
  · rw [visited, visited, hk', hx, hy, advance_gridW]
    omega
  · rw [visited, visited, hk', hx, hy, advance_gridW, show (s.bX.toNat + 8) / 8 = s.bX.toNat / 8 + 1 by omega]
    omega
  · have hlast : ceil8 s.gridW.toNat = s.bX.toNat / 8 + 1 := by
      rw [ceil8]
      omega
    rw [visited, visited, hk', hx, hy, advance_gridW, show (s.bY.toNat + 8) / 8 = s.bY.toNat / 8 + 1 by omega,
      Nat.succ_mul (s.bY.toNat / 8)]
    omega

/-- An unexhausted scan has visits to come (42_scanner.md R170). -/
theorem visited_lt {s : State} (h : ScanInv s) (hexh : exhausted s = false) :
    visited s < visitCount s.gridH.toNat s.gridW.toNat := by
  obtain ⟨hblock, hband⟩ := h.inside hexh
  have hk := s.k.isLt
  have hcolumn : s.bX.toNat / 8 < ceil8 s.gridW.toNat := by
    rw [ceil8]
    omega
  have hrow : s.bY.toNat / 8 + 1 ≤ ceil8 s.gridH.toNat := by
    rw [ceil8]
    omega
  have hblocks := Nat.mul_le_mul_right (ceil8 s.gridW.toNat) hrow
  rw [visited, visitCount, Nat.mul_assoc]
  rw [Nat.succ_mul] at hblocks
  omega

/-- `BIT_COUNT` cannot overflow: there are fewer visits than that (00_scope.md R8). -/
theorem visitCount_lt (gridH gridW : BitVec 16) : visitCount gridH.toNat gridW.toNat < 2 ^ 32 := by
  have hh : ceil8 gridH.toNat ≤ 8192 := by
    have := gridH.isLt
    rw [ceil8]
    omega
  have hw : ceil8 gridW.toNat ≤ 8192 := by
    have := gridW.isLt
    rw [ceil8]
    omega
  have hblocks := Nat.mul_le_mul hh hw
  rw [visitCount, Nat.mul_assoc]
  omega

/-! ### The framer -/

theorem FramerInv.hdrCnt_eq_32 {s : State} (h : FramerInv s) (hhdr : 32 ≤ s.hdrCnt.toNat) : s.hdrCnt.toNat = 32 := by
  have := h.hdrCnt_eq
  omega

theorem toNat_countBit {s : State} (hroom : s.bitCount.toNat + 1 < 2 ^ 32) :
    (countBit s).bitCount.toNat = s.bitCount.toNat + 1 :=
  BitVec.toNat_add_of_lt hroom

theorem pushedLen_toNat (b : Bool) (s : State) : (pushedLen b s).toNat = (2 * s.len.toNat + b.toNat) % 2 ^ 32 := by
  rw [pushedLen, Framer.shiftLeft_one_or_ofBool, BitVec.toNat_ofNat]

theorem pushedByte_toNat (b : Bool) (s : State) : (pushedByte b s).toNat = (2 * s.shreg.toNat + b.toNat) % 2 ^ 8 := by
  rw [pushedByte, Framer.shiftLeft_one_or_ofBool, BitVec.toNat_ofNat]

/-- A bit before the 32nd leaves the header pending. -/
theorem framerInv_headerBit_not_last {s : State} (b : Bool) (h : FramerInv s) (hhdr : s.hdrCnt.toNat < 31) :
    FramerInv (headerBit b (countBit s)) := by
  obtain ⟨hrem, hnb, hshreg, hout, hlen⟩ := h.pending (by omega)
  have hcount := h.hdrCnt_eq
  have hcount' : (countBit s).bitCount.toNat = s.bitCount.toNat + 1 := toNat_countBit (by omega)
  have hhdr' : (headerBit b (countBit s)).hdrCnt.toNat = s.hdrCnt.toNat + 1 :=
    BitVec.toNat_add_of_lt (show s.hdrCnt.toNat + 1 < 2 ^ 6 by omega)
  have hsame := Framer.headerBit_not_last b (s := countBit s) (show s.hdrCnt.toNat ≠ 31 by omega)
  have hfph : (headerBit b (countBit s)).fph = s.fph := by rw [hsame]; rfl
  have hrem' : (headerBit b (countBit s)).rem = s.rem := by rw [hsame]; rfl
  have hlen' : (headerBit b (countBit s)).len.toNat < 2 ^ (s.hdrCnt.toNat + 1) := by
    have hroom : 2 ^ (s.hdrCnt.toNat + 1) ≤ 2 ^ 31 := Nat.pow_le_pow_right (by omega) (by omega)
    have hbit := b.toNat_le
    rw [headerBit_len, pushedLen_toNat, countBit_len]
    rw [pow_succ] at hroom ⊢
    omega
  refine ⟨?_, ?_, fun _ => ⟨?_, hnb, hshreg, hout, ?_⟩, fun hdone => ?_, h.shreg_lt, fun hdone => ?_, h.no_result⟩
  · rw [hhdr', headerBit_bitCount]
    omega
  · rw [hfph, hhdr', if_pos (by omega)]
    exact h.fph_hdr.mpr (by omega)
  · rw [hrem', hrem]
  · rwa [hhdr']
  · omega
  · omega

/-- The 32nd bit completes the header: `REM` is `8 * LEN`, and the payload is still empty. -/
theorem framerInv_headerBit_last {s : State} (b : Bool) (h : FramerInv s) (hhdr : s.hdrCnt.toNat = 31) :
    FramerInv (headerBit b (countBit s)) := by
  obtain ⟨-, hnb, -, hout, -⟩ := h.pending (by omega)
  have hcount := h.hdrCnt_eq
  have hcount' : (countBit s).bitCount.toNat = s.bitCount.toNat + 1 := toNat_countBit (by omega)
  have hlast := Framer.headerBit_last b (s := countBit s) hhdr
  have hhdr' : (headerBit b (countBit s)).hdrCnt.toNat = 32 := by rw [hlast]; rfl
  have hrem : (headerBit b (countBit s)).rem.toNat = 8 * (headerBit b (countBit s)).len.toNat := by
    have hlen := (pushedLen b (countBit s)).isLt
    rw [hlast, BitVec.toNat_ofNat, Nat.mod_eq_of_lt (by omega)]
  have hfph : (headerBit b (countBit s)).fph = if (headerBit b (countBit s)).len = 0 then .drain else .pay := by
    rw [hlast]
  refine ⟨?_, ?_, fun hshort => ?_, fun _ => ?_, h.shreg_lt, fun _ _ => ?_, h.no_result⟩
  · rw [hhdr', headerBit_bitCount]
    omega
  · rw [hfph, hhdr', if_neg (Nat.lt_irrefl 32), hrem]
    refine if_congr ?_ rfl rfl
    rw [← toNat_eq_zero_iff]
    omega
  · omega
  · rw [hrem, headerBit_outCnt, headerBit_nb, countBit_outCnt, countBit_nb]
    omega
  · rw [headerBit_bitCount, headerBit_outCnt, headerBit_nb, countBit_outCnt, countBit_nb]
    omega

/-- The values of the payload registers after a payload bit. -/
theorem payloadBit_values {s : State} (b : Bool) (h : FramerInv s) (hhdr : 32 ≤ s.hdrCnt.toNat)
    (hrem : s.rem.toNat ≠ 0) :
    (s.rem - 1).toNat = s.rem.toNat - 1 ∧
    ((s.nb.toNat = 7 ∧ (payloadBit b (countBit s)).nb.toNat = 0 ∧ (payloadBit b (countBit s)).shreg.toNat = 0 ∧
      (payloadBit b (countBit s)).outCnt.toNat = s.outCnt.toNat + 1) ∨
    (s.nb.toNat < 7 ∧ (payloadBit b (countBit s)).nb.toNat = s.nb.toNat + 1 ∧
      (payloadBit b (countBit s)).shreg.toNat = 2 * s.shreg.toNat + b.toNat ∧
      (payloadBit b (countBit s)).outCnt.toNat = s.outCnt.toNat)) := by
  have hbalance := h.balance hhdr
  have hnb := s.nb.isLt
  have hlen := s.len.isLt
  constructor
  · exact BitVec.toNat_sub_of_le (show 1#35 ≤ s.rem by rw [BitVec.le_def, BitVec.toNat_ofNat]; omega)
  by_cases hfull : s.nb = 7
  · rw [Framer.payloadBit_eighth b (s := countBit s) hfull]
    refine .inl ⟨by rw [hfull]; rfl, rfl, rfl, ?_⟩
    exact BitVec.toNat_add_of_lt (show s.outCnt.toNat + 1 < 2 ^ 32 by omega)
  · have hpart : s.nb.toNat ≠ 7 := fun h7 => hfull (BitVec.eq_of_toNat_eq h7)
    rw [Framer.payloadBit_not_eighth b (s := countBit s) hfull]
    refine .inr ⟨by omega, ?_, ?_, rfl⟩
    · exact BitVec.toNat_add_of_lt (show s.nb.toNat + 1 < 2 ^ 3 by omega)
    · have hshreg := h.shreg_lt
      have hroom : 2 ^ s.nb.toNat ≤ 2 ^ 6 := Nat.pow_le_pow_right (by omega) (by omega)
      have hbit := b.toNat_le
      rw [pushedByte_toNat, countBit_shreg]
      omega

theorem framerInv_payloadBit {s : State} (b : Bool) (h : FramerInv s) (hhdr : 32 ≤ s.hdrCnt.toNat)
    (hrem : s.rem.toNat ≠ 0) (hroom : s.bitCount.toNat + 1 < 2 ^ 32) : FramerInv (payloadBit b (countBit s)) := by
  have hcount := h.hdrCnt_eq
  have hcount' := toNat_countBit hroom
  have hpay := h.pay_count hhdr hrem
  have hbalance := h.balance hhdr
  have hbit := b.toNat_le
  obtain ⟨hrem', hbyte⟩ := payloadBit_values b h hhdr hrem
  refine ⟨?_, ?_, fun hshort => absurd (show s.hdrCnt.toNat < 32 from hshort) (by omega), fun _ => ?_, ?_,
    fun _ _ => ?_, h.no_result⟩
  · show s.hdrCnt.toNat = min (countBit s).bitCount.toNat 32
    omega
  · rw [payloadBit_fph, payloadBit_hdrCnt, countBit_hdrCnt, if_neg hhdr.not_gt, countBit_fph,
      h.fph_pay.mpr ⟨hhdr, hrem⟩]
    exact if_congr (toNat_eq_zero_iff _).symm rfl rfl
  · rw [payloadBit_rem, payloadBit_len, countBit_rem, countBit_len]
    omega
  · obtain ⟨_, hnb, hshreg, _⟩ | ⟨_, hnb, hshreg, _⟩ := hbyte
    · rw [hnb, hshreg]
      decide
    · have hlt := h.shreg_lt
      rw [hnb, hshreg, pow_succ]
      omega
  · rw [payloadBit_bitCount]
    omega

theorem framerInv_drain {s : State} (h : FramerInv s) (hhdr : 32 ≤ s.hdrCnt.toNat) (hrem : s.rem.toNat = 0)
    (hroom : s.bitCount.toNat + 1 < 2 ^ 32) : FramerInv (countBit s) := by
  have hcount := h.hdrCnt_eq
  have hcount' := toNat_countBit hroom
  refine ⟨?_, h.fph_eq, h.pending, h.balance, h.shreg_lt, fun _ hpay => absurd hrem hpay, h.no_result⟩
  show s.hdrCnt.toNat = min (countBit s).bitCount.toNat 32
  omega

/-- Every bit keeps the framer's invariant, whichever phase receives it. -/
theorem framerInv_framed {s : State} (b : Bool) (h : FramerInv s) (hroom : s.bitCount.toNat + 1 < 2 ^ 32) :
    FramerInv (framed b s) := by
  cases hfph : s.fph with
  | hdr =>
    have hhdr := h.fph_hdr.mp hfph
    rw [framed_hdr hfph]
    rcases Nat.lt_or_ge s.hdrCnt.toNat 31 with hlt | hge
    · exact framerInv_headerBit_not_last b h hlt
    · exact framerInv_headerBit_last b h (by omega)
  | pay =>
    obtain ⟨hhdr, hrem⟩ := h.fph_pay.mp hfph
    rw [framed_pay hfph]
    exact framerInv_payloadBit b h hhdr hrem hroom
  | drain =>
    obtain ⟨hhdr, hrem⟩ := h.fph_drain.mp hfph
    rw [framed_drain hfph]
    exact framerInv_drain h hhdr hrem hroom

theorem FramerInv.advance {s : State} (h : FramerInv s) : FramerInv (advance s) :=
  ⟨h.hdrCnt_eq, h.fph_eq, h.pending, h.balance, h.shreg_lt, h.pay_count, h.no_result⟩

/-! ### A visit keeps a running operation -/

theorem framed_bitCount (b : Bool) (s : State) : (framed b s).bitCount = s.bitCount + 1 := by
  cases h : s.fph with
  | hdr => rw [framed_hdr h]; rfl
  | pay => rw [framed_pay h]; rfl
  | drain => rw [framed_drain h]; rfl

theorem scanInv_congr {s t : State} (h : ScanInv s) (hsame : SameScan s t) : ScanInv t := by
  obtain ⟨hbY, hbX, hk, hblock, hband⟩ := h
  rw [← hsame.bY] at hbY hband
  rw [← hsame.bX, ← hsame.k, ← hsame.gridW] at hblock
  rw [← hsame.bX] at hbX
  rw [← hsame.k] at hk
  rw [← hsame.gridH] at hband
  exact ⟨hbY, hbX, hk, hblock, hband⟩

theorem visited_congr {s t : State} (hsame : SameScan s t) : visited t = visited s := by
  rw [visited, visited, hsame.bY, hsame.bX, hsame.k, hsame.gridW]

theorem exhausted_received (o : Option Bool) (s : State) : exhausted (received o s) = exhausted s :=
  exhausted_congr (scanAgree_received o s)

/-- There is room for one more bit while there is a position to visit. -/
theorem Running.room {s : State} (h : Running s) (hexh : exhausted s = false) : s.bitCount.toNat + 1 < 2 ^ 32 := by
  have hcount := h.count
  have hvisits := visited_lt h.scan hexh
  have hbound := visitCount_lt s.gridH s.gridW
  omega

theorem framerInv_received {s : State} (o : Option Bool) (h : Running s) (hexh : exhausted s = false) :
    FramerInv (received o s) := by
  cases o with
  | none => exact h.framer
  | some b => exact framerInv_framed b h.framer (h.room hexh)

theorem received_count_le {s : State} (o : Option Bool) (h : Running s) (hexh : exhausted s = false) :
    (received o s).bitCount.toNat ≤ s.bitCount.toNat + 1 := by
  cases o with
  | none => exact Nat.le_succ _
  | some b =>
    rw [received_some, framed_bitCount]
    exact (toNat_countBit (h.room hexh)).le

theorem visited_visit {s : State} (o : Option Bool) (h : Running s) (hexh : exhausted s = false) :
    visited (advance (received o s)) = visited s + 1 := by
  have hsame := received_sameScan o s
  rw [visited_advance (scanInv_congr h.scan hsame) ((exhausted_received o s).trans hexh), visited_congr hsame]

theorem running_visit {s : State} (o : Option Bool) (h : Running s) (hexh : exhausted s = false) :
    Running (advance (received o s)) := by
  have hsame := received_sameScan o s
  refine ⟨hsame.phase.trans h.busy, (framerInv_received o h hexh).advance,
    (scanInv_congr h.scan hsame).advance ((exhausted_received o s).trans hexh), ?_⟩
  have hcount := h.count
  have hbits := received_count_le o h hexh
  rw [visited_visit o h hexh, advance_bitCount]
  omega

/-! ### `FINISH` -/

/-- The values that a padded end leaves: the partial byte is flushed, and every byte begun is counted. -/
theorem finishPad_values {s : State} (h : FramerInv s) (hhdr : 32 ≤ s.hdrCnt.toNat) (hrem : s.rem.toNat ≠ 0) :
    (finishPad s).outCnt.toNat = ceil8 (s.bitCount.toNat - 32) ∧ (finishPad s).outCnt.toNat ≤ s.len.toNat ∧
      (finishPad s).nb = 0 ∧ (finishPad s).shreg.toNat = 0 := by
  have hbalance := h.balance hhdr
  have hpay := h.pay_count hhdr hrem
  have hlen := s.len.isLt
  have hnb := s.nb.isLt
  rw [ceil8]
  by_cases hwhole : s.nb = 0
  · have hzero := (toNat_eq_zero_iff _).mpr hwhole
    have hshreg := h.shreg_lt
    rw [hzero, pow_zero, Nat.lt_one_iff] at hshreg
    rw [Framer.finishPad_no_partial hwhole]
    exact ⟨show s.outCnt.toNat = _ by omega, show s.outCnt.toNat ≤ _ by omega, hwhole, hshreg⟩
  · have hpart := mt (toNat_eq_zero_iff _).mp hwhole
    have hout : (s.outCnt + 1).toNat = s.outCnt.toNat + 1 :=
      BitVec.toNat_add_of_lt (show s.outCnt.toNat + 1 < 2 ^ 32 by omega)
    rw [Framer.finishPad_partial hwhole]
    exact ⟨show (s.outCnt + 1).toNat = _ by omega, show (s.outCnt + 1).toNat ≤ _ by omega, rfl, rfl⟩

/-- Each outcome of `FINISH` leaves one of the four ends (44_framer.md R200 to R203, R206). -/
theorem ended_of_finish {s t : State} (h : FramerInv s) (hfinish : exec .finish s = .next t) : Ended t := by
  obtain ⟨houtLen, herr, hunderrun⟩ := h.no_result
  obtain ⟨hhdr, ht⟩ | ⟨hhdr, hrem, ht⟩ | ⟨hhdr, hrem, hpol, ht⟩ | ⟨hhdr, hrem, hpol, ht⟩ := finish_cases s <;>
    cases ht.symm.trans hfinish
  · exact .inl ⟨hhdr, rfl, hunderrun, rfl⟩
  · obtain ⟨hnb, hout⟩ := h.drained hhdr ((toNat_eq_zero_iff _).mpr hrem)
    have hlen : s.outCnt = s.len := BitVec.eq_of_toNat_eq hout
    exact .inr (.inl ⟨h.hdrCnt_eq_32 hhdr, hrem, herr, hunderrun, hlen, hlen, (toNat_eq_zero_iff _).mp hnb⟩)
  · obtain ⟨hround, -, hnb, -⟩ := finishPad_values h hhdr (mt (toNat_eq_zero_iff _).mp hrem)
    refine .inr (.inr (.inl ⟨h.hdrCnt_eq_32 hhdr, hrem, hpol, herr, rfl, hround, rfl, hnb, ?_⟩))
    have hbalance := h.balance hhdr
    have hpay := h.pay_count hhdr (mt (toNat_eq_zero_iff _).mp hrem)
    rw [finishPad_bitCount, finishPad_rem, finishPad_len]
    omega
  · exact .inr (.inr (.inr ⟨h.hdrCnt_eq_32 hhdr, hrem, hpol, rfl, rfl, rfl, h.balance hhdr⟩))

/-- `DONE` has the invariants when it shows one of the four ends and the framer's registers are still consistent; the
scan, the counters of bits and `LEN`, `REM` and `FPH` are left by `FINISH`. -/
theorem coreInv_of_ended {s t : State} (h : CoreInv s) (hdone : t.phase = .done) (hended : Ended t)
    (hscan : t.bY = s.bY ∧ t.bX = s.bX ∧ t.k = s.k)
    (hkept : t.hdrCnt = s.hdrCnt ∧ t.bitCount = s.bitCount ∧ t.fph = s.fph ∧ t.rem = s.rem ∧ t.len = s.len)
    (hpending : s.hdrCnt.toNat < 32 → t.nb = s.nb ∧ t.shreg = s.shreg ∧ t.outCnt = s.outCnt)
    (hnb : s.nb = 0 → t.nb = 0) (hshreg : t.shreg.toNat < 2 ^ t.nb.toNat) (hle : t.outCnt.toNat ≤ t.len.toNat)
    (hcoef : Memory.wf t.coef = true) (hpay : Memory.wf t.pay = true) : CoreInv t := by
  obtain ⟨hbY, hbX, hk⟩ := hscan
  obtain ⟨hhdr, hcount, hfph, hrem, hlen⟩ := hkept
  have hnotBusy : t.phase ≠ .busy := by simp [hdone]
  constructor
  case bY_aligned => rw [hbY]; exact h.bY_aligned
  case bX_aligned => rw [hbX]; exact h.bX_aligned
  case k_pos => rw [hk]; exact h.k_pos
  case hdrCnt_eq => rw [hhdr, hcount]; exact h.hdrCnt_eq
  case fph_hdr => rw [hfph, hhdr]; exact h.fph_hdr
  case fph_pay => rw [hfph, hhdr, hrem]; exact h.fph_pay
  case fph_drain => rw [hfph, hhdr, hrem]; exact h.fph_drain
  case drain_nb => rw [hfph]; exact fun hdrain => hnb (h.drain_nb hdrain)
  case header_pending =>
    intro hshort
    rw [hhdr] at hshort
    obtain ⟨hnb', hshreg', hout'⟩ := hpending hshort
    rw [hrem, hnb', hshreg', hout', hlen, hhdr]
    exact h.header_pending hshort
  case shreg_lt => exact hshreg
  case outCnt_le => exact hle
  case ended => exact fun _ => hended
  case coef_wf => exact hcoef
  case pay_wf => exact hpay
  case balance | no_result | pay_count => exact fun hrun => absurd hdone hrun
  case idle_reset => exact fun hidle => by cases hidle.symm.trans hdone
  case busy_count | busy_block | busy_band => exact fun hbusy => absurd hbusy hnotBusy

theorem coreInv_finish {s t : State} (h : CoreInv s) (hbusy : s.phase = .busy)
    (hfinish : exec .finish s = .next t) : CoreInv t := by
  have hframer := (running_of_coreInv h hbusy).framer
  have hended := ended_of_finish hframer hfinish
  obtain ⟨-, ht⟩ | ⟨-, -, ht⟩ | ⟨hhdr, hrem, hpol, ht⟩ | ⟨-, -, -, ht⟩ := finish_cases s <;>
    cases ht.symm.trans hfinish
  case inr.inr.inl =>
    have hrem' := mt (toNat_eq_zero_iff _).mp hrem
    obtain ⟨-, hle, hnb, hshreg⟩ := finishPad_values hframer hhdr hrem'
    refine coreInv_of_ended h rfl hended ⟨rfl, rfl, rfl⟩ ⟨rfl, rfl, rfl, rfl, rfl⟩ (fun hshort => by omega)
      (fun _ => hnb) ?_ hle h.coef_wf (wf_finishPad s h.pay_wf)
    rw [hshreg]
    exact Nat.two_pow_pos _
  all_goals
    exact coreInv_of_ended h rfl hended ⟨rfl, rfl, rfl⟩ ⟨rfl, rfl, rfl, rfl, rfl⟩ (fun _ => ⟨rfl, rfl, rfl⟩) id
      h.shreg_lt h.outCnt_le h.coef_wf h.pay_wf

/-! ### The other turns -/

/-- The framer after `operation_init()` (41_host_operations.md R146). -/
theorem framerInv_initialised (p : Phase) (s : State) : FramerInv (HostOperations.initialised p s) :=
  ⟨rfl, rfl, fun _ => ⟨rfl, rfl, rfl, rfl, Nat.one_pos⟩, fun hdone => absurd hdone (Nat.not_succ_le_zero 31),
    Nat.one_pos, fun hdone => absurd hdone (Nat.not_succ_le_zero 31), rfl, rfl, rfl⟩

theorem scanInv_initialised (p : Phase) (s : State) : ScanInv (HostOperations.initialised p s) := by
  refine ⟨rfl, rfl, Nat.le_refl 1, ?_, Nat.lt_of_lt_of_le (show 0 < 8 by omega) (Nat.le_add_left 8 _)⟩
  by_cases hempty : s.gridW = 0
  · exact .inr ⟨hempty, rfl, rfl⟩
  · exact .inl (Nat.pos_of_ne_zero (mt (toNat_eq_zero_iff _).mp hempty))

/-- `START` begins a running operation at visit 0. -/
theorem running_initialised (s : State) : Running (HostOperations.initialised .busy s) :=
  ⟨rfl, framerInv_initialised .busy s, scanInv_initialised .busy s, Nat.zero_le _⟩

/-- A state in `IDLE` with every other register but the dimensions at its reset value has the invariants. -/
theorem coreInv_idle {s : State} (hidle : s.phase = .idle) (hreset : operationInit s = s)
    (hcoef : Memory.wf s.coef = true) (hpay : Memory.wf s.pay = true) : CoreInv s := by
  have hsame : HostOperations.initialised .idle s = s := by rw [HostOperations.initialised, hreset, ← hidle]
  have hrunning := coreInv_of_running (running_initialised s) hcoef hpay
  have hbusy : Phase.busy ≠ .done := by decide
  rw [← hsame]
  exact { hrunning with
    balance := fun _ => hrunning.balance hbusy
    no_result := fun _ => hrunning.no_result hbusy
    idle_reset := fun _ => rfl
    pay_count := fun _ => hrunning.pay_count hbusy
    ended := fun hdone => by cases hdone
    busy_count := fun hbusy => by cases hbusy
    busy_block := fun hbusy => by cases hbusy
    busy_band := fun hbusy => by cases hbusy }

/-- Settles O35. -/
theorem invariantHoldsAtReset : Obligations.InvariantHoldsAtReset :=
  coreInv_idle rfl rfl wf_reset_coef wf_reset_pay

theorem phase_cases (p : Phase) : p = .idle ∨ p = .busy ∨ p = .done := by
  cases p <;> simp

/-- The invariants do not depend on the turns, the answers and what the grid holds, nor outside `BUSY` on its
dimensions. -/
theorem coreInv_inputs {s : State} (h : CoreInv s) (gridH gridW : BitVec 16) (coef : List (Nat × CoefWord))
    (turns : List Turn) (reads : List Word) (hgrid : s.phase = .busy → gridH = s.gridH ∧ gridW = s.gridW)
    (hcoef : Memory.wf coef = true) :
    CoreInv { s with gridH := gridH, gridW := gridW, coef := coef, turns := turns, reads := reads } := by
  obtain hphase | hphase | hphase := phase_cases s.phase
  · exact coreInv_idle hphase (congrArg (fun t : State =>
      { t with gridH := gridH, gridW := gridW, coef := coef, turns := turns, reads := reads })
      (h.idle_reset hphase)) hcoef h.pay_wf
  · obtain ⟨rfl, rfl⟩ := hgrid hphase
    obtain ⟨hbusy, hframer, hscan, hcount⟩ := running_of_coreInv h hphase
    obtain ⟨hbY, hbX, hk, hblock, hband⟩ := hscan
    refine coreInv_of_running ⟨hbusy, ?_, ⟨hbY, hbX, hk, hblock, hband⟩, hcount⟩ hcoef h.pay_wf
    exact ⟨hframer.hdrCnt_eq, hframer.fph_eq, hframer.pending, hframer.balance, hframer.shreg_lt, hframer.pay_count,
      hframer.no_result⟩
  · exact coreInv_of_ended h hphase (h.ended hphase) ⟨rfl, rfl, rfl⟩ ⟨rfl, rfl, rfl, rfl, rfl⟩
      (fun _ => ⟨rfl, rfl, rfl⟩) id h.shreg_lt h.outCnt_le hcoef h.pay_wf

theorem coreInv_popTurn {s : State} (h : CoreInv s) : CoreInv (popTurn s) :=
  coreInv_inputs h s.gridH s.gridW s.coef s.turns.tail s.reads (fun _ => ⟨rfl, rfl⟩) h.coef_wf

theorem coreInv_respond {s : State} (rdata : Word) (h : CoreInv s) : CoreInv (respond rdata s) :=
  coreInv_inputs h s.gridH s.gridW s.coef s.turns (s.reads ++ [rdata]) (fun _ => ⟨rfl, rfl⟩) h.coef_wf

theorem coreInv_placeCoefficient {s : State} (row col : BitVec 16) (w : CoefWord) (h : CoreInv s) :
    CoreInv (placeCoefficient row col w s) :=
  coreInv_inputs h s.gridH s.gridW _ s.turns s.reads (fun _ => ⟨rfl, rfl⟩) (wf_placeCoefficient s row col w h.coef_wf)

/-- The host's operations keep the invariants: the commands by `operation_init()`, a dimension only outside `BUSY`. -/
theorem coreInv_exec_host {u : TWord} {i : Instr} {s t : State} (hi : decodeT u = .ok i) (h : CoreInv s)
    (hexec : exec i s = .next t) : CoreInv t := by
  cases i with
  | start wdata =>
    by_cases hbusy : s.phase = .busy
    · cases (HostOperations.exec_start_busy wdata hbusy).symm.trans hexec
      exact h
    · cases (HostOperations.exec_start wdata hbusy).symm.trans hexec
      exact coreInv_of_running (running_initialised s) h.coef_wf h.pay_wf
  | clear wdata =>
    by_cases hbusy : s.phase = .busy
    · cases (HostOperations.exec_clear_busy wdata hbusy).symm.trans hexec
      exact h
    · cases (HostOperations.exec_clear wdata hbusy).symm.trans hexec
      exact coreInv_idle rfl rfl h.coef_wf h.pay_wf
  | wrGridH wdata =>
    cases hexec
    split_ifs with hbusy
    · exact h
    · exact coreInv_inputs h _ s.gridW s.coef s.turns s.reads (fun hb => absurd hb hbusy) h.coef_wf
  | wrGridW wdata =>
    cases hexec
    split_ifs with hbusy
    · exact h
    · exact coreInv_inputs h s.gridH _ s.coef s.turns s.reads (fun hb => absurd hb hbusy) h.coef_wf
  | ctrlNop _ =>
    cases hexec
    exact h
  | rdCtrl _ | rdStatus _ | rdGridH _ | rdGridW _ | rdLen _ | rdOutLen _ | rdBitCount _ =>
    cases hexec
    exact coreInv_respond _ h
  | finish | visitAbsent | visitSkip | emitHdr | emitPay | emitDrain => cases (Encoding.encode_of_decodeT hi).2

theorem coreInv_hostTurn {u : TWord} {s t : State} (h : CoreInv s) (hturn : hostTurn u s = .next t) : CoreInv t := by
  cases hi : decodeT u with
  | ok i => exact coreInv_exec_host hi h ((hostTurn_ok s u i hi).symm.trans hturn)
  | error e =>
    cases (hostTurn_error s u e hi).symm.trans hturn
    obtain hsame | hanswer := reservedAccess_cases e s
    · rw [hsame]
      exact h
    · rw [hanswer]
      exact coreInv_respond 0 h

theorem wf_received {s : State} (o : Option Bool) (h : Memory.wf s.pay = true) :
    Memory.wf (received o s).pay = true := by
  cases o with
  | none => exact h
  | some b =>
    rw [received_some]
    cases hfph : s.fph with
    | hdr => rw [framed_hdr hfph]; exact h
    | pay => rw [framed_pay hfph]; exact wf_payloadBit (countBit s) b h
    | drain => rw [framed_drain hfph]; exact h

theorem coreInv_sequencerTurn {s t : State} (h : CoreInv s) (hturn : sequencerTurn s = .next t) : CoreInv t := by
  by_cases hbusy : s.phase = .busy
  · cases hexh : exhausted s with
    | false =>
      cases (sequencerTurn_visit hbusy hexh).symm.trans hturn
      have hcoef : (received (visitBit s) s).coef = s.coef := (received_sameScan _ s).coef
      exact coreInv_of_running (running_visit _ (running_of_coreInv h hbusy) hexh)
        (by rw [advance_coef, hcoef]; exact h.coef_wf) (wf_received _ h.pay_wf)
    | true => exact coreInv_finish h hbusy ((sequencerTurn_finish hbusy hexh).symm.trans hturn)
  · cases (sequencerTurn_rest s hbusy).symm.trans hturn
    exact h

/-- Settles O36: by the agent whose turn it is. -/
theorem invariantKeptByEveryStep : Obligations.InvariantKeptByEveryStep := by
  intro s t h hstep
  have hpop := coreInv_popTurn h
  cases hturn : nextTurn s with
  | sequencer => exact coreInv_sequencerTurn hpop ((step_of_nextTurn_sequencer hturn).symm.trans hstep)
  | host u => exact coreInv_hostTurn hpop ((step_of_nextTurn_host hturn).symm.trans hstep)
  | coefWrite row col w =>
    cases (step_of_nextTurn_coefWrite hturn).symm.trans hstep
    exact coreInv_placeCoefficient row col w hpop
  | hardReset =>
    cases (step_of_nextTurn_hardReset hturn).symm.trans hstep
    exact coreInv_idle rfl rfl h.coef_wf h.pay_wf

/-! ### What the invariants tell of `OUTCNT` and of `STATUS` -/

/-- With a complete header, in every phase: `OUTCNT = LEN` exactly when fewer than 8 bits are missing and no partial
byte is held (44_framer.md R198, log 15). -/
theorem outCnt_eq_len_iff {s : State} (h : CoreInv s) (hhdr : s.hdrCnt.toNat = 32) :
    s.outCnt = s.len ↔ s.rem.toNat < 8 ∧ s.nb = 0 := by
  rw [← BitVec.toNat_inj, ← toNat_eq_zero_iff]
  by_cases hdone : s.phase = .done
  · obtain ⟨hlt, -⟩ | ⟨-, hrem, -, -, -, hout, hnb⟩ | ⟨-, -, -, -, -, hlen, hout, hnb, hshort⟩ |
      ⟨-, -, -, -, -, -, hbalance⟩ := h.ended hdone
    · omega
    · rw [hout, hnb, hrem]
      simp
    · rw [hout, hlen, hnb, ceil8]
      have hzero : (0 : BitVec 3).toNat = 0 := rfl
      omega
    · omega
  · have hbalance := h.balance hdone hhdr
    omega

/-- `DONE` under `PAD`, where `FINISH` has flushed the partial byte, holds none (44_framer.md R201, R202). -/
theorem nb_of_done_pad {s : State} (h : CoreInv s) (hhdr : s.hdrCnt.toNat = 32) (hdone : s.phase = .done)
    (hpol : s.policy = .pad) : s.nb = 0 := by
  obtain ⟨hlt, -⟩ | ⟨-, -, -, -, -, -, hnb⟩ | ⟨-, -, -, -, -, -, -, hnb, -⟩ | ⟨-, -, hstrict, -⟩ := h.ended hdone
  · omega
  · exact hnb
  · exact hnb
  · cases hpol.symm.trans hstrict

/-- A padded end reaches `LEN` exactly when at most 7 bits are missing (44_framer.md R202). -/
theorem finishPad_outLen_eq_iff {s : State} (h : FramerInv s) (hhdr : 32 ≤ s.hdrCnt.toNat) (hrem : s.rem.toNat ≠ 0) :
    (finishPad s).outLen = (finishPad s).len ↔ s.rem.toNat ≤ 7 := by
  obtain ⟨hround, -⟩ := finishPad_values h hhdr hrem
  have hbalance := h.balance hhdr
  have hpay := h.pay_count hhdr hrem
  have hout : (finishPad s).outLen = (finishPad s).outCnt := rfl
  rw [ceil8] at hround
  rw [hout, ← BitVec.toNat_inj, hround, finishPad_len]
  omega

/-- Settles O37. -/
theorem bytesWrittenNeverExceedLength : Obligations.BytesWrittenNeverExceedLength := by
  intro s h
  refine ⟨h.outCnt_le, outCnt_eq_len_iff h, fun hhdr hdone hpol => ?_, fun hrun hhdr => ?_,
    fun hrun hpol hhdr hrem => ?_⟩
  · rw [outCnt_eq_len_iff h hhdr]
    exact and_iff_left (nb_of_done_pad h hhdr hdone hpol)
  · have hbalance := h.balance hrun hhdr
    have hnb := s.nb.isLt
    rw [← BitVec.toNat_inj, ← toNat_eq_zero_iff, ← toNat_eq_zero_iff]
    omega
  · exact ⟨_, Framer.exec_finish_pad hhdr.ge hrem hpol,
      finishPad_outLen_eq_iff (framerInv_of_coreInv h hrun) hhdr.ge (mt (toNat_eq_zero_iff _).mp hrem)⟩

/-- `STATUS` in `DONE`, by `HDRCNT`, `UNDERRUN` and `ERRCODE` (10_state.md R39). -/
theorem statusWord_of_done {s : State} {err : ErrCode} {underrun : Bool} (hdone : s.phase = .done)
    (herr : s.errCode = err) (hunderrun : s.underrun = underrun) :
    statusWord s = BitVec.ofNat 32 (256 * (errNumber err).toNat + (if s.hdrCnt.toNat = 32 then 16 else 0) +
      (if underrun then 8 else 0) + (if err = .none then 0 else 4) + 2) := by
  subst herr hunderrun
  rw [HostOperations.statusWord_eq_ofNat s rfl, if_pos hdone,
    if_neg (show ¬ s.phase = .busy by simp [hdone]), Nat.add_zero]

/-- `STATUS` and `OUT_LEN` at each of the four ends (44_framer.md R206). -/
theorem status_of_ended {s : State} (hdone : s.phase = .done) (h : Ended s) :
    (s.hdrCnt.toNat < 32 ∧ statusWord s = 0x106 ∧ s.outLen = 0) ∨
    (s.hdrCnt.toNat = 32 ∧ s.rem = 0 ∧ statusWord s = 0x012 ∧ s.outLen = s.len) ∨
    (s.hdrCnt.toNat = 32 ∧ s.rem ≠ 0 ∧ s.policy = .pad ∧ statusWord s = 0x01A ∧
      s.outLen.toNat = ceil8 (s.bitCount.toNat - 32)) ∨
    (s.hdrCnt.toNat = 32 ∧ s.rem ≠ 0 ∧ s.policy = .strict ∧ statusWord s = 0x21E ∧ s.outLen = 0) := by
  refine h.imp ?_ (Or.imp ?_ (Or.imp ?_ ?_))
  · rintro ⟨hhdr, herr, hunderrun, hout⟩
    refine ⟨hhdr, ?_, hout⟩
    rw [statusWord_of_done hdone herr hunderrun, if_neg hhdr.ne]
    rfl
  · rintro ⟨hhdr, hrem, herr, hunderrun, hout, -⟩
    refine ⟨hhdr, hrem, ?_, hout⟩
    rw [statusWord_of_done hdone herr hunderrun, if_pos hhdr]
    rfl
  · rintro ⟨hhdr, hrem, hpol, herr, hunderrun, hout, -⟩
    refine ⟨hhdr, hrem, hpol, ?_, hout⟩
    rw [statusWord_of_done hdone herr hunderrun, if_pos hhdr]
    rfl
  · rintro ⟨hhdr, hrem, hpol, herr, hunderrun, hout, -⟩
    refine ⟨hhdr, hrem, hpol, ?_, hout⟩
    rw [statusWord_of_done hdone herr hunderrun, if_pos hhdr]
    rfl

theorem statusWord_idle {s : State} (h : CoreInv s) (hidle : s.phase = .idle) : statusWord s = 0 := by
  rw [← HostOperations.initialised_idle_of_coreInv h hidle, HostOperations.statusWord_initialised]
  decide

/-- While `BUSY` no result stands, so `STATUS` shows `BUSY` and `HDR_OK` alone (10_state.md R39). -/
theorem statusWord_busy {s : State} (h : CoreInv s) (hbusy : s.phase = .busy) :
    statusWord s = if s.bitCount.toNat < 32 then 0x001 else 0x011 := by
  have hrun : s.phase ≠ .done := by simp [hbusy]
  obtain ⟨-, herr, hunderrun⟩ := h.no_result hrun
  have hcount := h.hdrCnt_eq
  have hcode : (errNumber s.errCode).toNat = 0 := by
    rw [herr]
    rfl
  rw [HostOperations.statusWord_eq_ofNat s hcode, hunderrun, if_pos herr, if_neg hrun, if_pos hbusy]
  rcases Nat.lt_or_ge s.bitCount.toNat 32 with hshort | hfull
  · rw [if_pos hshort, if_neg (by omega)]
    rfl
  · rw [if_neg hfull.not_gt, if_pos (by omega)]
    rfl

/-- Settles O38: in `DONE` the tests of a clause leave one of the four ends. -/
theorem statusTellsTheOutcome : Obligations.StatusTellsTheOutcome := by
  intro s h
  have hcount := h.hdrCnt_eq
  refine ⟨statusWord_idle h, statusWord_busy h, fun hdone hbits => ?_, fun hdone hbits hrem => ?_,
    fun hdone hbits hrem hpol => ?_, fun hdone hbits hrem hpol => ?_⟩ <;>
    have hend := status_of_ended hdone (h.ended hdone)
  · obtain ⟨-, hend⟩ | ⟨hhdr, -⟩ | ⟨hhdr, -⟩ | ⟨hhdr, -⟩ := hend
    · exact hend
    all_goals omega
  · obtain ⟨hhdr, -⟩ | ⟨-, -, hend⟩ | ⟨-, hrem', -⟩ | ⟨-, hrem', -⟩ := hend
    · omega
    · exact hend
    all_goals exact absurd hrem hrem'
  · obtain ⟨hhdr, -⟩ | ⟨-, hrem', -⟩ | ⟨-, -, -, hend⟩ | ⟨-, -, hpol', -⟩ := hend
    · omega
    · exact absurd hrem' hrem
    · exact hend
    · cases hpol.symm.trans hpol'
  · obtain ⟨hhdr, -⟩ | ⟨-, hrem', -⟩ | ⟨-, -, hpol', -⟩ | ⟨-, -, -, hend⟩ := hend
    · omega
    · exact absurd hrem' hrem
    · cases hpol.symm.trans hpol'
    · exact hend

end Sys2Proof.Proofs.Invariant

/-! PROOFS. What the framer holds of the bits received (40_reference_functions.md R125, R126): after any bit list its
registers and `PAY` are what the reference functions say of that list, and each further bit keeps this. -/

namespace Sys2Proof.Proofs.ReceivedBits

open Sys2Proof.Machine Sys2Proof.Safety Turns Invariant Bits

/-! ### The payload of a bit list -/

/-- The payload bits of a stream, as many as are there (40_reference_functions.md R126). -/
def payloadBits (bits : List Bool) : List Bool :=
  (bits.drop 32).take (8 * declaredLength bits)

theorem payloadBits_of_header {bits : List Bool} (h : bits.length ≤ 32) : payloadBits bits = [] := by
  rw [payloadBits, List.drop_of_length_le h, List.take_nil]

/-- Before every declared bit is there, the payload is all that follows the header. -/
theorem payloadBits_of_short {bits : List Bool} (h : bits.length - 32 ≤ 8 * declaredLength bits) :
    payloadBits bits = bits.drop 32 := by
  rw [payloadBits, List.take_of_length_le (by rwa [List.length_drop])]

/-- While a declared bit is missing, the next bit is a payload bit. -/
theorem payloadBits_concat_of_short {bits : List Bool} (b : Bool) (hheader : 32 ≤ bits.length)
    (hshort : bits.length - 32 < 8 * declaredLength bits) : payloadBits (bits ++ [b]) = payloadBits bits ++ [b] := by
  have hdeclared := declaredLength_append [b] hheader
  have hshort' : (bits ++ [b]).length - 32 ≤ 8 * declaredLength (bits ++ [b]) := by
    rw [hdeclared, List.length_append, List.length_singleton]
    omega
  rw [payloadBits_of_short hshort.le, payloadBits_of_short hshort', List.drop_append_of_le_length hheader]

/-- Once every declared bit is there, further bits are no payload. -/
theorem payloadBits_concat_of_enough {bits : List Bool} (b : Bool) (hheader : 32 ≤ bits.length)
    (henough : 8 * declaredLength bits ≤ bits.length - 32) : payloadBits (bits ++ [b]) = payloadBits bits := by
  rw [payloadBits, payloadBits, declaredLength_append [b] hheader, List.drop_append_of_le_length hheader,
    List.take_append_of_le_length (by rwa [List.length_drop])]

theorem length_payloadBits (bits : List Bool) :
    (payloadBits bits).length = min (8 * declaredLength bits) (bits.length - 32) := by
  rw [payloadBits, List.length_take, List.length_drop]

/-! ### The framer's registers and `PAY` after a bit list -/

/-- `t` has received `bits` since `s`, which holds `PAY` as it was before: the counters, `LEN`, the partial byte, the
bytes written, and the rest of `PAY`. -/
structure Received (bits : List Bool) (s t : State) : Prop where
  count : t.bitCount.toNat = bits.length
  len : t.len.toNat = declaredLength bits
  payload : (payloadBits bits).length = 8 * t.outCnt.toNat + t.nb.toNat
  shreg : t.shreg.toNat = bitsValue ((payloadBits bits).drop (8 * t.outCnt.toNat))
  pay : ∀ i < t.outCnt.toNat, payRead t i = some (BitVec.ofNat 8 (packByte (payloadBits bits) i))
  kept : PayKeptFrom t.outCnt.toNat s t

section Step

variable {bits : List Bool} {s t : State}

theorem Received.hdrCnt (h : Received bits s t) (hframer : FramerInv t) : t.hdrCnt.toNat = min bits.length 32 := by
  rw [hframer.hdrCnt_eq, h.count]

theorem Received.short (h : Received bits s t) (hframer : FramerInv t) (hhdr : 32 ≤ t.hdrCnt.toNat)
    (hrem : t.rem.toNat ≠ 0) : 32 ≤ bits.length ∧ bits.length - 32 < 8 * declaredLength bits := by
  have hcount := h.hdrCnt hframer
  have hbalance := hframer.balance hhdr
  have hpay := hframer.pay_count hhdr hrem
  rw [h.count] at hpay
  rw [h.len] at hbalance
  omega

theorem Received.enough (h : Received bits s t) (hframer : FramerInv t) (hhdr : 32 ≤ t.hdrCnt.toNat)
    (hrem : t.rem.toNat = 0) : 32 ≤ bits.length ∧ 8 * declaredLength bits ≤ bits.length - 32 := by
  have hcount := h.hdrCnt hframer
  have hpayload := h.payload
  obtain ⟨-, hout⟩ := hframer.drained hhdr hrem
  rw [length_payloadBits, ← h.len] at hpayload
  rw [← h.len]
  omega

/-- A header bit is shifted into `LEN` (44_framer.md R191). -/
theorem Received.header (b : Bool) (h : Received bits s t) (hframer : FramerInv t) (hhdr : t.hdrCnt.toNat < 32) :
    Received (bits ++ [b]) s (headerBit b (countBit t)) := by
  have hlength : bits.length < 32 := by
    have hcount := h.hdrCnt hframer
    omega
  have hlength' : (bits ++ [b]).length ≤ 32 := by
    rw [List.length_append, List.length_singleton]
    omega
  have hnone := payloadBits_of_header hlength.le
  have hnone' := payloadBits_of_header hlength'
  have hcount' : (countBit t).bitCount.toNat = t.bitCount.toNat + 1 := by
    have hcount := h.count
    exact toNat_countBit (by omega)
  refine ⟨?_, ?_, ?_, ?_, ?_, h.kept⟩
  · rw [headerBit_bitCount, hcount', h.count, List.length_append, List.length_singleton]
  · have hbound := bitsValue_lt (bits ++ [b])
    have hroom : 2 ^ (bits ++ [b]).length ≤ 2 ^ 32 := Nat.pow_le_pow_right (by omega) hlength'
    rw [headerBit_len, pushedLen_toNat, countBit_len, h.len, declaredLength, declaredLength,
      List.take_of_length_le hlength.le, List.take_of_length_le hlength', ← bitsValue_concat,
      Nat.mod_eq_of_lt (hbound.trans_le hroom)]
  · rw [hnone', ← hnone]
    exact h.payload
  · rw [hnone', ← hnone]
    exact h.shreg
  · rw [hnone', ← hnone]
    exact h.pay

/-- The bits of the byte begun, with one more. -/
theorem Received.pushed (b : Bool) (h : Received bits s t) :
    bitsValue ((payloadBits bits ++ [b]).drop (8 * t.outCnt.toNat)) = 2 * t.shreg.toNat + b.toNat := by
  have hpayload := h.payload
  rw [List.drop_append_of_le_length (by omega), bitsValue_concat, h.shreg]

/-- The eighth bit of a byte completes the byte that packing gives. -/
theorem Received.byte (b : Bool) (h : Received bits s t) (hfull : t.nb.toNat = 7) :
    pushedByte b t = BitVec.ofNat 8 (packByte (payloadBits bits ++ [b]) t.outCnt.toNat) := by
  have hpayload := h.payload
  have hlength : ((payloadBits bits ++ [b]).drop (8 * t.outCnt.toNat)).length = 8 := by
    rw [List.length_drop, List.length_append, List.length_singleton]
    omega
  rw [packByte_eq_shifted, hlength, List.take_of_length_le hlength.le, h.pushed b, Nat.sub_self, pow_zero, Nat.mul_one,
    pushedByte, Framer.shiftLeft_one_or_ofBool]

/-- A payload bit is pushed into the byte begun, and the eighth stores it (44_framer.md R193). -/
theorem Received.payloadBit (b : Bool) (h : Received bits s t) (hframer : FramerInv t) (hhdr : 32 ≤ t.hdrCnt.toNat)
    (hrem : t.rem.toNat ≠ 0) (hroom : t.bitCount.toNat + 1 < 2 ^ 32) :
    Received (bits ++ [b]) s (Machine.payloadBit b (countBit t)) := by
  obtain ⟨hheader, hshort⟩ := h.short hframer hhdr hrem
  have hpayload := h.payload
  have happend := payloadBits_concat_of_short b hheader hshort
  have hcount : (Machine.payloadBit b (countBit t)).bitCount.toNat = (bits ++ [b]).length := by
    rw [payloadBit_bitCount, toNat_countBit hroom, h.count, List.length_append, List.length_singleton]
  have hlen : (Machine.payloadBit b (countBit t)).len.toNat = declaredLength (bits ++ [b]) := by
    rw [payloadBit_len, countBit_len, h.len, declaredLength_append [b] hheader]
  have hbytes : ∀ i < t.outCnt.toNat, packByte (payloadBits bits ++ [b]) i = packByte (payloadBits bits) i :=
    fun i hi => packByte_append [b] (by omega)
  obtain ⟨-, ⟨hfull, hnb, hshreg, hout⟩ | ⟨hpart, hnb, hshreg, hout⟩⟩ := payloadBit_values b hframer hhdr hrem
  · have hstored : (Machine.payloadBit b (countBit t)).pay = payWrite t t.outCnt (pushedByte b t) := by
      rw [Framer.payloadBit_eighth b (s := countBit t) (BitVec.eq_of_toNat_eq hfull)]
      rfl
    refine ⟨hcount, hlen, ?_, ?_, fun i hi => ?_, fun a ha => ?_⟩
    · rw [happend, hout, hnb, List.length_append, List.length_singleton]
      omega
    · rw [happend, hout, hshreg, List.drop_of_length_le, bitsValue_nil]
      rw [List.length_append, List.length_singleton]
      omega
    · rw [happend]
      rw [hout] at hi
      obtain hlt | rfl := Nat.lt_succ_iff_lt_or_eq.mp hi
      · rw [payRead_payWrite_other t _ t.outCnt _ i hstored hlt.ne, h.pay i hlt, hbytes i hlt]
      · rw [payRead_payWrite_same t _ t.outCnt _ hstored, h.byte b hfull]
    · rw [hout] at ha
      rw [payRead_payWrite_other t _ t.outCnt _ a hstored (by omega)]
      exact h.kept a (by omega)
  · have hsame : (Machine.payloadBit b (countBit t)).pay = t.pay := by
      rw [Framer.payloadBit_not_eighth b (s := countBit t) (fun h7 => hpart.ne (congrArg BitVec.toNat h7))]
      rfl
    refine ⟨hcount, hlen, ?_, ?_, fun i hi => ?_, fun a ha => ?_⟩
    · rw [happend, hout, hnb, List.length_append, List.length_singleton]
      omega
    · rw [happend, hout, hshreg, h.pushed b]
    · rw [hout] at hi
      rw [happend, payRead, hsame, hbytes i hi]
      exact h.pay i hi
    · rw [hout] at ha
      rw [payRead, hsame]
      exact h.kept a ha

/-- A bit after the payload is counted and changes nothing else (44_framer.md R195). -/
theorem Received.drain (b : Bool) (h : Received bits s t) (hframer : FramerInv t) (hhdr : 32 ≤ t.hdrCnt.toNat)
    (hrem : t.rem.toNat = 0) (hroom : t.bitCount.toNat + 1 < 2 ^ 32) : Received (bits ++ [b]) s (countBit t) := by
  obtain ⟨hheader, henough⟩ := h.enough hframer hhdr hrem
  have hsame := payloadBits_concat_of_enough b hheader henough
  refine ⟨?_, ?_, ?_, ?_, ?_, h.kept⟩
  · rw [toNat_countBit hroom, h.count, List.length_append, List.length_singleton]
  · rw [declaredLength_append [b] hheader]
    exact h.len
  · rw [hsame]
    exact h.payload
  · rw [hsame]
    exact h.shreg
  · rw [hsame]
    exact h.pay

theorem Received.framed (b : Bool) (h : Received bits s t) (hframer : FramerInv t)
    (hroom : t.bitCount.toNat + 1 < 2 ^ 32) : Received (bits ++ [b]) s (framed b t) := by
  cases hfph : t.fph with
  | hdr =>
    rw [framed_hdr hfph]
    exact h.header b hframer (hframer.fph_hdr.mp hfph)
  | pay =>
    obtain ⟨hhdr, hrem⟩ := hframer.fph_pay.mp hfph
    rw [framed_pay hfph]
    exact h.payloadBit b hframer hhdr hrem hroom
  | drain =>
    obtain ⟨hhdr, hrem⟩ := hframer.fph_drain.mp hfph
    rw [framed_drain hfph]
    exact h.drain b hframer hhdr hrem hroom

theorem Received.advance (h : Received bits s t) : Received bits s (advance t) :=
  ⟨h.count, h.len, h.payload, h.shreg, h.pay, h.kept⟩

/-- A visit appends the bit of its position, if it has one, to the stream received. -/
theorem Received.visit (o : Option Bool) (h : Received bits s t) (hrunning : Running t) (hexh : exhausted t = false) :
    Received (bits ++ o.toList) s (Machine.advance (received o t)) := by
  cases o with
  | none =>
    rw [Option.toList_none, List.append_nil]
    exact h.advance
  | some b => exact (h.framed b hrunning.framer (hrunning.room hexh)).advance

end Step

end Sys2Proof.Proofs.ReceivedBits

/-! PROOFS. The whole operation (40_reference_functions.md R129, 42_scanner.md R170, R172). A running operation that has
made `n` visits is at visit `n` of the visit order, and its framer has received the bits of the first `n`; the host's
transactions do not touch it. -/

namespace Sys2Proof.Proofs.Operation

open Sys2Proof.Machine Sys2Proof.Safety Turns Invariant ScanOrder Bits ReceivedBits

/-! ### The scan position in the visit order -/

theorem getElem?_product {α β : Type} {l : List α} {m : List β} {i j : Nat} {a : α} {b : β} (hi : l[i]? = some a)
    (hj : m[j]? = some b) : (l ×ˢ m)[i * m.length + j]? = some (a, b) := by
  induction l generalizing i with
  | nil => simp at hi
  | cons c l ih =>
    have hlt : j < m.length := (List.getElem?_eq_some_iff.mp hj).1
    rw [List.product_cons]
    cases i with
    | zero =>
      obtain rfl : c = a := by simpa using hi
      rw [Nat.zero_mul, Nat.zero_add, List.getElem?_append_left (by rwa [List.length_map]), List.getElem?_map, hj]
      rfl
    | succ i =>
      rw [List.getElem?_append_right (by rw [List.length_map, Nat.succ_mul]; omega), List.length_map,
        show (i + 1) * m.length + j - m.length = i * m.length + j by rw [Nat.succ_mul]; omega]
      exact ih (by simpa using hi)

theorem filterMap_singleton {α β : Type} (f : α → Option β) (a : α) : [a].filterMap f = (f a).toList := by
  cases h : f a <;> simp [h]

theorem getElem?_bandOrigins {n i : Nat} (h : i < ceil8 n) : (bandOrigins n)[i]? = some (8 * i) := by
  simp [bandOrigins, h]

/-- The visit that the scan registers name. -/
def currentVisit (s : State) : Visit :=
  ((s.bY.toNat, s.bX.toNat), s.k.toNat)

/-- A scan that has made `visited` visits is at that entry of the visit order. -/
theorem visitOrder_visited {s : State} (h : ScanInv s) (hexh : exhausted s = false) :
    (visitOrder s.gridH.toNat s.gridW.toNat)[visited s]? = some (currentVisit s) := by
  obtain ⟨hblock, hband⟩ := h.inside hexh
  have hbY := h.bY_aligned
  have hbX := h.bX_aligned
  have hk := h.k_pos
  have hk' := s.k.isLt
  have hrow := getElem?_bandOrigins (n := s.gridH.toNat) (i := s.bY.toNat / 8) (by rw [ceil8]; omega)
  have hcol := getElem?_bandOrigins (n := s.gridW.toNat) (i := s.bX.toNat / 8) (by rw [ceil8]; omega)
  have hindex : (List.range' 1 63)[s.k.toNat - 1]? = some s.k.toNat := by
    rw [List.getElem?_range' (by omega), Option.some_inj]
    omega
  have horigin := getElem?_product hrow hcol
  rw [length_bandOrigins, Nat.mul_div_cancel' (Nat.dvd_of_mod_eq_zero hbY),
    Nat.mul_div_cancel' (Nat.dvd_of_mod_eq_zero hbX)] at horigin
  have hvisit := getElem?_product horigin hindex
  rw [List.length_range', Nat.mul_comm] at hvisit
  exact hvisit

/-- Exhaustion comes with the last visit and not before (42_scanner.md R170). -/
theorem visitCount_le_visited {s : State} (h : ScanInv s) (hexh : exhausted s = true) :
    visitCount s.gridH.toNat s.gridW.toNat ≤ visited s := by
  rw [visitCount, visited, Nat.mul_assoc]
  obtain hwidth | hband := (exhausted_iff s).mp hexh
  · rw [hwidth]
    exact Nat.zero_le _
  · have hrow : ceil8 s.gridH.toNat ≤ s.bY.toNat / 8 := by
      have hbY := h.bY_aligned
      rw [ceil8]
      omega
    have hblocks := Nat.mul_le_mul_right (ceil8 s.gridW.toNat) hrow
    omega

/-! ### The bits of the visits -/

/-- The bit of a visit to a grid, if it has one. -/
def gridBit (height width : Nat) (g : Nat → Nat → Int) (v : Visit) : Option Bool :=
  if inGrid height width (visitPosition v) then symbolBit (g (visitPosition v).1 (visitPosition v).2) else none

theorem visitBit_eq_gridBit (s : State) :
    visitBit s = gridBit s.gridH.toNat s.gridW.toNat (gridOf s) (currentVisit s) := rfl

/-- `extract` is the bits of all visits, in order. -/
theorem extract_eq_visits (height width : Nat) (g : Nat → Nat → Int) :
    extract height width g = (visitOrder height width).filterMap (gridBit height width g) := by
  rw [extract_eq_filterMap, scanPositions_eq_filter, List.filterMap_filter, List.filterMap_map]
  rfl

/-- The `COEF` address of a visit, if it reads one. -/
def visitAddress (height width : Nat) (v : Visit) : Option (BitVec 32) :=
  if inGrid height width (visitPosition v) then some (coefAddress (visitPosition v).1 (visitPosition v).2) else none

theorem coefAccess_eq_visitAddress {s : State} (hbusy : s.phase = .busy) (hexh : exhausted s = false) :
    coefAccess s = visitAddress s.gridH.toNat s.gridW.toNat (currentVisit s) := by
  rw [coefAccess, hexh, hbusy]
  rfl

theorem addresses_eq_visits (height width : Nat) :
    (scanPositions height width).map (fun p => coefAddress p.1 p.2) =
      (visitOrder height width).filterMap (visitAddress height width) := by
  rw [scanPositions_eq_filter, ← List.filterMap_eq_map, List.filterMap_filter, List.filterMap_map]
  rfl

/-! ### A running operation after `n` visits -/

/-- `t` runs the operation that was started in `s` and has made `n` visits. -/
structure Progress (s : State) (n : Nat) (t : State) : Prop where
  running : Running t
  visits : visited t = n
  gridH : t.gridH = s.gridH
  gridW : t.gridW = s.gridW
  coef : t.coef = s.coef
  policy : t.policy = s.policy
  received : Received (((visitOrder s.gridH.toNat s.gridW.toNat).take n).filterMap
    (gridBit s.gridH.toNat s.gridW.toNat (gridOf s))) s t

theorem progress_start (s : State) : Progress s 0 (HostOperations.initialised .busy s) where
  running := running_initialised s
  visits := by
    have hfirst : visited (HostOperations.initialised .busy s) = 63 * (0 / 8 * ceil8 s.gridW.toNat + 0 / 8) + (1 - 1) :=
      rfl
    rw [hfirst]
    omega
  gridH := rfl
  gridW := rfl
  coef := rfl
  policy := rfl
  received := ⟨rfl, rfl, rfl, rfl, fun i hi => absurd hi (Nat.not_lt_zero i), fun _ _ => rfl⟩

/-- Turns and answers are no part of the operation. -/
theorem Progress.withTurns {s t : State} {n : Nat} (h : Progress s n t) (turns : List Turn) (reads : List Word) :
    Progress s n { t with turns := turns, reads := reads } := by
  obtain ⟨⟨hbusy, hframer, hscan, hcount⟩, hvisits, hgridH, hgridW, hcoef, hpolicy, hreceived⟩ := h
  obtain ⟨hbY, hbX, hk, hblock, hband⟩ := hscan
  refine ⟨⟨hbusy, ?_, ⟨hbY, hbX, hk, hblock, hband⟩, hcount⟩, hvisits, hgridH, hgridW, hcoef, hpolicy, ?_⟩
  · exact ⟨hframer.hdrCnt_eq, hframer.fph_eq, hframer.pending, hframer.balance, hframer.shreg_lt, hframer.pay_count,
      hframer.no_result⟩
  · exact ⟨hreceived.count, hreceived.len, hreceived.payload, hreceived.shreg, hreceived.pay, hreceived.kept⟩

section Progress

variable {s t : State} {n : Nat}

theorem gridOf_congr (h : t.coef = s.coef) : gridOf t = gridOf s := by
  funext row col
  rw [gridOf, gridOf, coefRead, coefRead, h]

theorem Progress.visitOrder_get (h : Progress s n t) (hexh : exhausted t = false) :
    (visitOrder s.gridH.toNat s.gridW.toNat)[n]? = some (currentVisit t) := by
  rw [← h.gridH, ← h.gridW, ← h.visits]
  exact visitOrder_visited h.running.scan hexh

/-- The operation is exhausted exactly when it has made every visit. -/
theorem Progress.exhausted_iff (h : Progress s n t) (hn : n ≤ visitCount s.gridH.toNat s.gridW.toNat) :
    exhausted t = true ↔ n = visitCount s.gridH.toNat s.gridW.toNat := by
  rw [← h.gridH, ← h.gridW, ← h.visits] at *
  constructor
  · intro hexh
    exact Nat.le_antisymm hn (visitCount_le_visited h.running.scan hexh)
  · intro hall
    by_contra hexh
    have hlt := visited_lt h.running.scan (Bool.eq_false_iff.mpr hexh)
    omega

/-- A visit makes one visit of progress. -/
theorem Progress.visit (h : Progress s n t) (hexh : exhausted t = false) :
    Progress s (n + 1) (advance (Turns.received (visitBit t) t)) where
  running := running_visit _ h.running hexh
  visits := by rw [visited_visit _ h.running hexh, h.visits]
  gridH := (received_sameScan _ t).gridH.trans h.gridH
  gridW := (received_sameScan _ t).gridW.trans h.gridW
  coef := (received_sameScan _ t).coef.trans h.coef
  policy := (received_sameScan _ t).policy.trans h.policy
  received := by
    have hbit : visitBit t = gridBit s.gridH.toNat s.gridW.toNat (gridOf s) (currentVisit t) := by
      rw [visitBit_eq_gridBit, h.gridH, h.gridW, gridOf_congr h.coef]
    rw [List.take_add_one, h.visitOrder_get hexh, Option.toList_some, List.filterMap_append, filterMap_singleton,
      ← hbit]
    exact h.received.visit _ h.running hexh

/-- A host transaction leaves a running operation as it is: a write is lost, a read is answered. -/
theorem step_host_busy {u : TWord} {rest : List Turn} (hbusy : t.phase = .busy) (hturns : t.turns = .host u :: rest) :
    ∃ reads, step t = .next { t with turns := rest, reads := reads } := by
  cases hwe : tWe u with
  | false => exact ⟨_, Words.readTransactionsFollowRegisterMap t u rest hturns hwe⟩
  | true => exact ⟨t.reads, ResetAndHazards.busyLosesEveryWrite t u rest hturns hwe hbusy⟩

theorem Progress.step_host {u : TWord} {rest : List Turn} (h : Progress s n t) (hturns : t.turns = .host u :: rest) :
    ∃ t', step t = .next t' ∧ t'.turns = rest ∧ Progress s n t' := by
  obtain ⟨reads, hstep⟩ := step_host_busy h.running.busy hturns
  exact ⟨_, hstep, rfl, h.withTurns rest reads⟩

theorem Progress.popTurn (h : Progress s n t) : Progress s n (popTurn t) :=
  h.withTurns t.turns.tail t.reads

/-- A sequencer turn with visits to come is the next visit. -/
theorem Progress.step_sequencer {rest : List Turn} (h : Progress s n t) (hturns : t.turns = .sequencer :: rest)
    (hn : n < visitCount s.gridH.toNat s.gridW.toNat) :
    ∃ t', step t = .next t' ∧ t'.turns = rest ∧ Progress s (n + 1) t' := by
  have hpop := h.popTurn
  have hexh : exhausted (Machine.popTurn t) = false :=
    Bool.eq_false_iff.mpr fun hexh => hn.ne ((hpop.exhausted_iff hn.le).mp hexh)
  refine ⟨_, (Machine.step_sequencer t rest hturns).trans (sequencerTurn_visit hpop.running.busy hexh), ?_,
    hpop.visit hexh⟩
  rw [advance_turns, (received_sameScan _ _).turns, popTurn_turns, hturns, List.tail_cons]

end Progress

/-! ### Runs -/

theorem core_run_succ (M : Host.Core) {k : Nat} {s t : M.State} (h : M.step s = .next t) :
    M.run (k + 1) s = M.run k t := by
  rw [Host.Core.run, h]

theorem run_succ {k : Nat} {s t : State} (h : step s = .next t) :
    Host.Core.run Sys2Proof.core (k + 1) s = Host.Core.run Sys2Proof.core k t :=
  core_run_succ Sys2Proof.core h

theorem run_add {j k : Nat} {s t : State} (h : Host.Core.run Sys2Proof.core j s = .next t) :
    Host.Core.run Sys2Proof.core (j + k) s = Host.Core.run Sys2Proof.core k t := by
  induction j generalizing s with
  | zero =>
    cases h
    rw [Nat.zero_add]
  | succ j ih =>
    obtain ⟨u, hu⟩ := everyStateHasNextState s
    rw [run_succ hu] at h
    rw [Nat.add_right_comm, run_succ hu, ih h]

/-- `START` outside `BUSY` begins the operation. -/
theorem step_start {s : State} {wdata : Word} {ts : List Turn} (hrest : s.phase ≠ .busy)
    (hstart : wdata.getLsbD 0 = true) (hturns : s.turns = .host (tWord true 0x00 wdata) :: ts) :
    ∃ t, step s = .next t ∧ t.turns = ts ∧ Progress s 0 t := by
  refine ⟨_, (HostOperations.step_host_ok hturns (HostOperations.decodeT_start hstart)).trans
    (HostOperations.exec_start wdata hrest), rfl, ?_⟩
  exact (progress_start s).withTurns ts s.reads

/-- A quiet run makes as many visits as there are sequencer turns, up to the last visit, whatever the host does. -/
theorem run_progress {s : State} {rest : List Turn} (ts : List Turn) :
    ∀ {n : Nat} {t : State}, Progress s n t → t.turns = ts ++ rest → (∀ u ∈ ts, Quiet u) →
      n + ts.count .sequencer ≤ visitCount s.gridH.toNat s.gridW.toNat →
      ∃ t' : State, Host.Core.run Sys2Proof.core ts.length t = .next t' ∧ t'.turns = rest ∧
        Progress s (n + ts.count .sequencer) t' := by
  induction ts with
  | nil => exact fun h hturns _ _ => ⟨_, rfl, hturns, h⟩
  | cons u ts ih =>
    intro n t h hturns hquiet hcount
    obtain ⟨hu, hts⟩ := List.forall_mem_cons.mp hquiet
    cases u with
    | sequencer =>
      rw [List.count_cons_self] at hcount ⊢
      obtain ⟨t', hstep, hturns', h'⟩ := h.step_sequencer hturns (by omega)
      rw [List.length_cons, run_succ hstep, ← Nat.add_assoc, Nat.add_right_comm]
      exact ih h' hturns' hts (by omega)
    | host w =>
      rw [List.count_cons_of_ne (by simp)] at hcount ⊢
      obtain ⟨t', hstep, hturns', h'⟩ := h.step_host hturns
      rw [List.length_cons, run_succ hstep]
      exact ih h' hturns' hts hcount
    | coefWrite row col w => exact absurd hu id
    | hardReset => exact absurd hu id

/-- `START` and a quiet run after it. -/
theorem run_from_start {s : State} {wdata : Word} {ts rest : List Turn} (hrest : s.phase ≠ .busy)
    (hstart : wdata.getLsbD 0 = true) (hturns : s.turns = .host (tWord true 0x00 wdata) :: (ts ++ rest))
    (hquiet : ∀ u ∈ ts, Quiet u) (hcount : ts.count .sequencer ≤ visitCount s.gridH.toNat s.gridW.toNat) :
    ∃ t : State, Host.Core.run Sys2Proof.core (1 + ts.length) s = .next t ∧ t.turns = rest ∧
      Progress s (ts.count .sequencer) t := by
  obtain ⟨t, hstep, hturns', h⟩ := step_start hrest hstart hturns
  obtain ⟨t', hrun, hturns'', h'⟩ := run_progress ts h hturns' hquiet (by omega)
  rw [Nat.zero_add] at h'
  exact ⟨t', by rw [Nat.add_comm, run_succ hstep, hrun], hturns'', h'⟩

/-- Settles O47: the run makes as many visits as there are sequencer turns, and the last visit exhausts the scan. -/
theorem operationLengthIsExact : Obligations.OperationLengthIsExact := by
  intro s wdata ts rest hrest hstart hturns hquiet hcount
  obtain ⟨t, hrun, hturns', h⟩ := run_from_start hrest hstart hturns hquiet hcount
  have hfinish : decodeS (selector t) = .ok .finish ↔ exhausted t = true := by
    rw [Framer.decodeS_finish_iff, selector_exh]
  exact ⟨t, hrun, hturns', h.running.busy, hfinish.trans (h.exhausted_iff hcount)⟩

/-! ### The `COEF` addresses read -/

theorem accessTrace_succ {n : Nat} {s t : State} (h : step s = .next t) :
    accessTrace (n + 1) s = (stepAccess s).toList ++ accessTrace n t := by
  rw [accessTrace, h]

theorem stepAccess_host {s : State} {u : TWord} {ts : List Turn} (h : s.turns = .host u :: ts) :
    stepAccess s = none := by
  simp [stepAccess, nextTurn, h]

theorem stepAccess_sequencer {s : State} {ts : List Turn} (h : s.turns = .sequencer :: ts) :
    stepAccess s = coefAccess s := by
  simp [stepAccess, nextTurn, h]

/-- The addresses read in a quiet run are those of the visits it makes. -/
theorem accessTrace_progress {s : State} {rest : List Turn} (ts : List Turn) :
    ∀ {n : Nat} {t : State}, Progress s n t → t.turns = ts ++ rest → (∀ u ∈ ts, Quiet u) →
      n + ts.count .sequencer ≤ visitCount s.gridH.toNat s.gridW.toNat →
      accessTrace ts.length t =
        (((visitOrder s.gridH.toNat s.gridW.toNat).drop n).take (ts.count .sequencer)).filterMap
          (visitAddress s.gridH.toNat s.gridW.toNat) := by
  induction ts with
  | nil => exact fun _ _ _ _ => rfl
  | cons u ts ih =>
    intro n t h hturns hquiet hcount
    obtain ⟨hu, hts⟩ := List.forall_mem_cons.mp hquiet
    cases u with
    | sequencer =>
      rw [List.count_cons_self] at hcount ⊢
      have hexh : exhausted t = false :=
        Bool.eq_false_iff.mpr fun hexh => by
          have := (h.exhausted_iff (by omega)).mp hexh
          omega
      obtain ⟨t', hstep, hturns', h'⟩ := h.step_sequencer hturns (by omega)
      obtain ⟨hlt, hvisit⟩ := List.getElem?_eq_some_iff.mp (h.visitOrder_get hexh)
      rw [List.length_cons, accessTrace_succ hstep, ih h' hturns' hts (by omega), stepAccess_sequencer hturns,
        coefAccess_eq_visitAddress h.running.busy hexh, h.gridH, h.gridW, List.drop_eq_getElem_cons hlt, hvisit,
        List.take_succ_cons, List.filterMap_cons]
      cases visitAddress s.gridH.toNat s.gridW.toNat (currentVisit t) <;> rfl
    | host w =>
      rw [List.count_cons_of_ne (by simp)] at hcount ⊢
      obtain ⟨t', hstep, hturns', h'⟩ := h.step_host hturns
      rw [List.length_cons, accessTrace_succ hstep, stepAccess_host hturns, ih h' hturns' hts hcount]
      rfl
    | coefWrite row col w => exact absurd hu id
    | hardReset => exact absurd hu id

/-- Settles O48: the addresses of all visits, which are those of the positions read. -/
theorem coefficientReadSequence : Obligations.CoefficientReadSequence := by
  intro s wdata ts rest hrest hstart hturns hquiet hcount
  obtain ⟨t, hstep, hturns', h⟩ := step_start hrest hstart hturns
  rw [Nat.add_comm, accessTrace_succ hstep, stepAccess_host hturns,
    accessTrace_progress ts h hturns' hquiet (by omega), addresses_eq_visits, hcount, List.drop_zero,
    ← length_visitOrder, List.take_length]
  rfl

/-! ### The end of the operation -/

/-- What every outcome of `FINISH` leaves of the operation. -/
theorem finish_frame {t u : State} (h : exec .finish t = .next u) :
    u.phase = .done ∧ u.turns = t.turns ∧ u.bitCount = t.bitCount ∧ u.coef = t.coef ∧ u.gridH = t.gridH ∧
      u.gridW = t.gridW ∧ u.hdrCnt = t.hdrCnt ∧ u.len = t.len := by
  obtain ⟨-, ht⟩ | ⟨-, -, ht⟩ | ⟨-, -, -, ht⟩ | ⟨-, -, -, ht⟩ := finish_cases t <;> cases ht.symm.trans h <;>
    exact ⟨rfl, rfl, rfl, rfl, rfl, rfl, rfl, rfl⟩

section Outcomes

variable {bits : List Bool} {s t : State}

/-- The bytes written are the first bytes of the packed payload. -/
theorem payHolds_received (h : Received bits s t) : PayHolds (pack (payloadBits bits)) t.outCnt.toNat t := by
  intro i hi
  have hpayload := h.payload
  rw [pack_getD (by rw [ceil8]; omega)]
  exact h.pay i hi

/-- The padded byte is the last byte of the packed payload, filled with zeros (44_framer.md R202). -/
theorem paddedByte_received (h : Received bits s t) :
    paddedByte t = BitVec.ofNat 8 (packByte (payloadBits bits) t.outCnt.toNat) := by
  have hpayload := h.payload
  have hnb := t.nb.isLt
  have hlength : ((payloadBits bits).drop (8 * t.outCnt.toNat)).length = t.nb.toNat := by
    rw [List.length_drop]
    omega
  rw [Framer.paddedByte_eq, packByte_eq_shifted, hlength, List.take_of_length_le (by omega), h.shreg]

/-- A padded end has written the whole packed payload and nothing after it. -/
theorem payHolds_finishPad (h : Received bits s t) :
    PayHolds (pack (payloadBits bits)) (ceil8 (payloadBits bits).length) (finishPad t) ∧
      PayKeptFrom (ceil8 (payloadBits bits).length) s (finishPad t) := by
  have hpayload := h.payload
  have hnb := t.nb.isLt
  by_cases hwhole : t.nb = 0
  · have hbytes : ceil8 (payloadBits bits).length = t.outCnt.toNat := by
      rw [hpayload, hwhole]
      exact Decode.ceil8_eight_mul _
    rw [hbytes, Framer.finishPad_no_partial hwhole]
    exact ⟨payHolds_received h, h.kept⟩
  · have hpart := mt (toNat_eq_zero_iff _).mp hwhole
    have hbytes : ceil8 (payloadBits bits).length = t.outCnt.toNat + 1 := by
      rw [hpayload, ceil8]
      omega
    have hstored : (finishPad t).pay = payWrite t t.outCnt (paddedByte t) := by
      rw [Framer.finishPad_partial hwhole]
    rw [hbytes]
    refine ⟨fun i hi => ?_, fun a ha => ?_⟩
    · obtain hlt | rfl := Nat.lt_succ_iff_lt_or_eq.mp hi
      · rw [payRead_payWrite_other t _ t.outCnt _ i hstored hlt.ne]
        exact payHolds_received h i hlt
      · rw [payRead_payWrite_same t _ t.outCnt _ hstored, paddedByte_received h, pack_getD (by omega)]
    · rw [payRead_payWrite_other t _ t.outCnt _ a hstored (by omega)]
      exact h.kept a (by omega)

/-- Too few bits for a header (44_framer.md R200). -/
theorem finish_insufficientHeader (h : Received bits s t) (hframer : FramerInv t) (hhdr : t.hdrCnt.toNat < 32) :
    decodeFrame s.policy bits = .err .insufficientHeader ∧
      statusWord (raiseFraming .insufficientHeader t) = 0x106 ∧ t.underrun = false ∧ t.len.toNat = bitsValue bits ∧
      PayKeptFrom 0 s t := by
  have hcount := h.hdrCnt hframer
  have hlength : bits.length < 32 := by omega
  obtain ⟨-, -, -, hout, -⟩ := hframer.pending hhdr
  obtain ⟨-, -, hunderrun⟩ := hframer.no_result
  refine ⟨decodeFrame_of_no_header hlength, ?_, hunderrun, ?_, hout ▸ h.kept⟩
  · rw [statusWord_of_done (s := raiseFraming .insufficientHeader t) rfl rfl hunderrun, raiseFraming_hdrCnt,
      if_neg hhdr.ne]
    rfl
  · rw [h.len, declaredLength, List.take_of_length_le hlength.le]

/-- Every declared bit has come (44_framer.md R201). -/
theorem finish_complete (h : Received bits s t) (hframer : FramerInv t) (hhdr : 32 ≤ t.hdrCnt.toNat)
    (hrem : t.rem = 0) :
    decodeFrame s.policy bits = .ok (pack (payloadBits bits)) false ∧ statusWord (finishComplete t) = 0x012 ∧
      t.errCode = .none ∧ t.underrun = false ∧ t.outCnt.toNat = (pack (payloadBits bits)).length := by
  have hrem' := (toNat_eq_zero_iff _).mpr hrem
  obtain ⟨hheader, henough⟩ := h.enough hframer hhdr hrem'
  obtain ⟨-, hout⟩ := hframer.drained hhdr hrem'
  obtain ⟨-, herr, hunderrun⟩ := hframer.no_result
  refine ⟨Decode.decodeFrame_of_enough hheader henough, ?_, herr, hunderrun, ?_⟩
  · rw [statusWord_of_done (s := finishComplete t) rfl herr hunderrun, finishComplete_hdrCnt,
      if_pos (hframer.hdrCnt_eq_32 hhdr)]
    rfl
  · rw [hout, h.len, Decode.length_pack, length_payloadBits, Nat.min_eq_left henough, Decode.ceil8_eight_mul]

/-- Declared bits are missing under `PAD` (44_framer.md R202). -/
theorem finish_pad (h : Received bits s t) (hframer : FramerInv t) (hhdr : 32 ≤ t.hdrCnt.toNat) (hrem : t.rem ≠ 0)
    (hpol : s.policy = .pad) :
    decodeFrame s.policy bits = .ok (pack (payloadBits bits)) true ∧ statusWord (finishPad t) = 0x01A ∧
      t.errCode = .none ∧ (finishPad t).outCnt.toNat = (pack (payloadBits bits)).length := by
  have hrem' := mt (toNat_eq_zero_iff _).mp hrem
  obtain ⟨hheader, hshort⟩ := h.short hframer hhdr hrem'
  obtain ⟨hout, -⟩ := finishPad_values hframer hhdr hrem'
  obtain ⟨-, herr, -⟩ := hframer.no_result
  refine ⟨?_, ?_, herr, ?_⟩
  · rw [hpol, Decode.decodeFrame_pad_of_short hheader hshort, payloadBits_of_short hshort.le]
  · rw [statusWord_of_done (s := finishPad t) (underrun := true) rfl herr rfl, finishPad_hdrCnt,
      if_pos (hframer.hdrCnt_eq_32 hhdr)]
    rfl
  · rw [hout, h.count, Decode.length_pack, length_payloadBits, Nat.min_eq_right hshort.le]

/-- Declared bits are missing under `STRICT` (44_framer.md R203). -/
theorem finish_strict (h : Received bits s t) (hframer : FramerInv t) (hhdr : 32 ≤ t.hdrCnt.toNat) (hrem : t.rem ≠ 0)
    (hpol : s.policy = .strict) :
    decodeFrame s.policy bits = .err .truncatedPayload ∧ statusWord (raiseFraming .truncatedPayload t) = 0x21E ∧
      payloadBits bits = bits.drop 32 ∧ t.outCnt.toNat = (bits.length - 32) / 8 := by
  have hrem' := mt (toNat_eq_zero_iff _).mp hrem
  obtain ⟨hheader, hshort⟩ := h.short hframer hhdr hrem'
  have hpayload := h.payload
  have hnb := t.nb.isLt
  refine ⟨?_, ?_, payloadBits_of_short hshort.le, ?_⟩
  · rw [hpol, decodeFrame_strict_of_short hheader hshort]
  · rw [statusWord_of_done (s := raiseFraming .truncatedPayload t) rfl rfl rfl, raiseFraming_hdrCnt,
      if_pos (hframer.hdrCnt_eq_32 hhdr)]
    rfl
  · rw [length_payloadBits, Nat.min_eq_right hshort.le] at hpayload
    omega

end Outcomes

/-- When every visit is made, the stream received is `extract` of the grid that was there at `START`. -/
theorem Progress.received_extract {s t : State} (h : Progress s (visitCount s.gridH.toNat s.gridW.toNat) t) :
    Received (extract s.gridH.toNat s.gridW.toNat (gridOf s)) s t := by
  have hreceived := h.received
  rwa [← length_visitOrder, List.take_length, ← extract_eq_visits] at hreceived

/-- The last turn of the operation is `FINISH`. -/
theorem Progress.step_finish {s t : State} {rest : List Turn}
    (h : Progress s (visitCount s.gridH.toNat s.gridW.toNat) t) (hturns : t.turns = .sequencer :: rest) :
    ∃ u v : State, step t = .next v ∧ exec .finish u = .next v ∧ u.turns = rest ∧
      Progress s (visitCount s.gridH.toNat s.gridW.toNat) u := by
  have hstep := HostOperations.step_finish hturns h.running.busy ((h.exhausted_iff le_rfl).mpr rfl)
  obtain ⟨v, hv⟩ := exec_next .finish { t with turns := rest }
  exact ⟨_, v, hstep.trans hv, hv, rfl, h.withTurns rest t.reads⟩

/-- `START` and a quiet run that ends with the sequencer turn after the last visit. -/
theorem run_to_finish {s : State} {wdata : Word} {ts rest : List Turn} (hrest : s.phase ≠ .busy)
    (hstart : wdata.getLsbD 0 = true) (hturns : s.turns = .host (tWord true 0x00 wdata) :: (ts ++ rest))
    (hquiet : ∀ u ∈ ts, Quiet u) (hlast : ts.getLast? = some .sequencer)
    (hcount : ts.count .sequencer = visitCount s.gridH.toNat s.gridW.toNat + 1) :
    ∃ u v : State, Host.Core.run Sys2Proof.core (1 + ts.length) s = .next v ∧ exec .finish u = .next v ∧
      u.turns = rest ∧ Progress s (visitCount s.gridH.toNat s.gridW.toNat) u := by
  obtain ⟨ts, rfl⟩ := List.getLast?_eq_some_iff.mp hlast
  rw [List.count_append, List.count_singleton_self, Nat.add_right_cancel_iff] at hcount
  rw [List.append_assoc] at hturns
  obtain ⟨t, hrun, hturns', h⟩ := run_from_start hrest hstart hturns
    (fun u hu => hquiet u (List.mem_append_left _ hu)) hcount.le
  rw [hcount] at h
  obtain ⟨u, v, hstep, hfinish, hrest', hu⟩ := h.step_finish hturns'
  refine ⟨u, v, ?_, hfinish, hrest', hu⟩
  rw [List.length_append, ← Nat.add_assoc, run_add hrun]
  exact run_succ (k := 0) hstep

/-- Settles O46: after the last visit the framer holds `extract` of the grid, and `FINISH` has the outcome that
`decode` has of it. -/
theorem operationComputesDecodeOfExtract : Obligations.OperationComputesDecodeOfExtract := by
  intro s wdata ts rest bits hrest hstart hturns hquiet hlast hcount hbits
  obtain ⟨u, v, hrun, hfinish, hrest', h⟩ := run_to_finish hrest hstart hturns hquiet hlast hcount
  have hframer := h.running.framer
  have hreceived := h.received_extract
  rw [← hbits] at hreceived
  obtain ⟨hdone, hkeepTurns, hkeepCount, hkeepCoef, hkeepH, hkeepW, -, hkeepLen⟩ := finish_frame hfinish
  refine ⟨v, hrun, hkeepTurns.trans hrest', hdone, ?_, hkeepCoef.trans h.coef, hkeepH.trans h.gridH,
    hkeepW.trans h.gridW, ?_⟩
  · rw [hkeepCount]
    exact hreceived.count
  · obtain ⟨hhdr, hv⟩ | ⟨hhdr, hrem, hv⟩ | ⟨hhdr, hrem, hpol, hv⟩ | ⟨hhdr, hrem, hpol, hv⟩ := finish_cases u <;>
      cases hv.symm.trans hfinish
    · obtain ⟨hdecode, hstatus, hunderrun, hlen, hkept⟩ := finish_insufficientHeader hreceived hframer hhdr
      rw [hdecode]
      exact ⟨rfl, hunderrun, rfl, hstatus, hlen, hkept⟩
    · obtain ⟨hdecode, hstatus, herr, hunderrun, hout⟩ := finish_complete hreceived hframer hhdr hrem
      rw [hdecode]
      exact ⟨herr, hunderrun, hout, hstatus, hreceived.len, hout ▸ payHolds_received hreceived,
        hout ▸ hreceived.kept⟩
    · obtain ⟨hdecode, hstatus, herr, hout⟩ := finish_pad hreceived hframer hhdr hrem (h.policy ▸ hpol)
      obtain ⟨hholds, hkept⟩ := payHolds_finishPad hreceived
      rw [← Decode.length_pack] at hholds hkept
      rw [hdecode]
      exact ⟨herr, rfl, hout, hstatus, hreceived.len, hholds, hkept⟩
    · obtain ⟨hdecode, hstatus, hpayload, hout⟩ := finish_strict hreceived hframer hhdr hrem (h.policy ▸ hpol)
      rw [hdecode, ← hpayload, ← hout]
      exact ⟨rfl, rfl, rfl, hstatus, hreceived.len, payHolds_received hreceived, hreceived.kept⟩

end Sys2Proof.Proofs.Operation
